-- ==== Sys2Proof/Word.lean ====
section
/-! DEFINITION. The two widths of the machine (R5, R7): the byte and the 16-bit word or address. Arithmetic on them is
`BitVec` arithmetic, modulo 256 and modulo 65,536 (R16). -/

namespace Sys2Proof

/-- An 8-bit value: a register, a memory cell, an immediate `d8` (R7). -/
abbrev Byte := BitVec 8

/-- A 16-bit value: an address, PC, SP, a register pair, an operand `a16` or `d16` (R7). -/
abbrev Word := BitVec 16

end Sys2Proof
end

