-- ==== Sys2Proof/Machine/Bytes.lean ====
section
/-! DEFINITION. Byte order in one place: a 16-bit value is `{hi, lo}` = hi * 256 + lo (R6), the low byte at the lower address
(R53, R54). -/

namespace Sys2Proof.Machine

/-- `v[15:8]` (R6). -/
def hiByte (v : Word) : Byte := v.extractLsb' 8 8

/-- `v[7:0]` (R6). -/
def loByte (v : Word) : Byte := v.extractLsb' 0 8

/-- `{h, l}` (R6). -/
def joinBytes (h l : Byte) : Word := h ++ l

end Sys2Proof.Machine
end

