-- ==== Sys2Proof/Config.lean ====
section
/-! DEFINITION. What is fixed before the first step: the sizes and the undefined opcode set of the machine, and the four
parameters the spec leaves open for a run (R5). The machine has no free value: the spec leaves no result unspecified
(93_implementation_defined.md, end of Part 1). -/

namespace Sys2Proof

/-- `MEM_SIZE` (R5): the number of memory cells. -/
def memSize : Nat := 65536

/-- `UNDEFINED_OPCODES` (R5, R83): the bytes that, fetched as an opcode, raise `UnimplementedOpcode`.
UNVERIFIED but for `0xDD` (D2, G16; log entry 7). -/
def undefinedOpcodes : List Byte :=
  [0x08, 0x10, 0x18, 0x20, 0x28, 0x30, 0x38, 0xCB, 0xD9, 0xDD, 0xED, 0xFD]

/-- The parameters of a run, which the driver fixes before the first step (R5, R278). -/
structure Config where
  /-- `PC_INIT`: PC at the first step (R33, R277). -/
  pcInit : Word
  /-- `SP_INIT`: SP at the first step (R36). -/
  spInit : Word
  /-- `LOAD_BASE`: the address of byte 0 of the image (R276). -/
  loadBase : Word
  /-- `IMAGE`: the program's bytes (R276). -/
  image : List Byte
deriving DecidableEq, Repr

/-- R68, D26: the image ends at or below the top of memory. -/
def Config.imageFits (c : Config) : Bool :=
  decide (c.image.length ≤ memSize - c.loadBase.toNat)

/-- The parameters behind `State.reset`. DESIGN CHOICE (log entries 1, 2, 3): PC 0, as in every scenario of the source; SP 0;
load base 0, "for normal use"; no image. `Machine.boot` takes any others. -/
def Config.ofReset : Config :=
  { pcInit := 0x0000, spInit := 0x0000, loadBase := 0x0000, image := [] }

end Sys2Proof
end

