-- ==== Sys2Proof/Machine/Memory.lean ====
section
/-! DEFINITION. Memory (R39, R50): 65,536 cells, held as the list of the cells that do not hold the reset value, in one
canonical form, and the byte read and write every access is made of (R9, R57). -/

namespace Sys2Proof.Machine

/-- The cells that differ from `unlistedByte`, addresses strictly rising. -/
abbrev Memory := List Host.Cell

/-- What an address with no entry reads as: "memory zero-filled" (R39, U16). -/
def unlistedByte : Byte := 0x00

/-- The canonical form below an address: every entry lies at or above `lo`, the addresses rise strictly, none reaches the
end of memory, and no entry holds `unlistedByte`. -/
def Memory.wfFrom : Nat → Memory → Bool
  | _, [] => true
  | lo, (a, v) :: m => decide (lo ≤ a) && decide (a < memSize) && decide (v ≠ unlistedByte) && Memory.wfFrom (a + 1) m

/-- The canonical form: equal memories are equal lists. -/
def Memory.wf (m : Memory) : Bool := Memory.wfFrom 0 m

/-- The byte at an address (R9, R59). -/
def Memory.read : Memory → Nat → Byte
  | [], _ => unlistedByte
  | (b, w) :: m, a => if a = b then w else Memory.read m a

/-- The memory without an entry at `a`: there it reads `unlistedByte`. -/
def Memory.erase (m : Memory) (a : Nat) : Memory := m.filter fun cell => cell.1 ≠ a

/-- A new entry in its place by address. -/
def Memory.insert : Memory → Nat → Byte → Memory
  | [], a, v => [(a, v)]
  | (b, w) :: m, a, v => if a < b then (a, v) :: (b, w) :: m else (b, w) :: Memory.insert m a v

/-- Replaces the byte at an address and nothing else (R9, R59); a byte that an unlisted address reads as gets no entry, which
keeps the canonical form. -/
def Memory.write (m : Memory) (a : Nat) (v : Byte) : Memory :=
  if v = unlistedByte then m.erase a else (m.erase a).insert a v

end Sys2Proof.Machine
end

