-- ==== Sys2Proof/Machine/State.lean ====
section
/-! DEFINITION. The whole state of the machine (10_state.md), the reasons a step can stop, and the state after reset (R275). -/

namespace Sys2Proof.Machine

/-- The register file (R20): seven independent bytes. -/
structure Regs where
  a : Byte
  b : Byte
  c : Byte
  d : Byte
  e : Byte
  h : Byte
  l : Byte
deriving DecidableEq, Repr

/-- The five condition flags (R26), each a bit of state of its own. -/
structure Flags where
  /-- Zero (R27). -/
  z : Bool
  /-- Sign (R28). -/
  s : Bool
  /-- Parity (R29). -/
  p : Bool
  /-- Carry (R30). -/
  cy : Bool
  /-- Auxiliary carry (R31). -/
  ac : Bool
deriving DecidableEq, Repr

/-- What an unimplemented opcode records (R42, R250): the offending byte, the address it was fetched at, and the number of
steps completed before it. -/
structure FaultRecord where
  opcode : Byte
  pc : Word
  steps : Nat
deriving DecidableEq, Repr

/-- The architectural state: everything 10_state.md lists, and nothing else (R43, R44). -/
structure State where
  /-- A, B, C, D, E, H, L (R20). -/
  regs : Regs
  /-- Z, S, P, CY, AC (R26). -/
  flags : Flags
  /-- The program counter (R33). -/
  pc : Word
  /-- The stack pointer (R36). -/
  sp : Word
  /-- INTE, the interrupt-enable flag (R38). -/
  inte : Bool
  /-- The 65,536 bytes of memory (R39). -/
  mem : Memory
  /-- The number of completed steps (R40). -/
  steps : Nat
  /-- The halt latch (R41). -/
  halted : Bool
  /-- The fault record (R42). -/
  faultRecord : Option FaultRecord
deriving DecidableEq, Repr

/-- Why the machine stops. -/
inductive Fault where
  /-- R257, U11: the state holds a fault record, so no further step exists; the fault repeats the record's three values
  (R250, R252). Raised by `Machine.step` alone, on a state that has taken the exception. Safe: the machine stops where the
  hardware stops. -/
  | unimplementedOpcode (opcode : Byte) (pc : Word) (steps : Nat)
deriving DecidableEq, Repr

/-- Why the model gives no meaning. -/
inductive Refusal where
  /-- An instruction of the table that has no meaning yet. Raised by no arm of this model. Safe. -/
  | notModelled (mnemonic : String)
  /-- R68, D26: the image would run past the top of memory. Raised by `Machine.boot` before there is a state, never by a
  step. Safe: the spec makes the fit a precondition of the load. -/
  | imageTooLong
deriving DecidableEq, Repr

/-- How a step ended (R11): `continue`, `halt` or the fault. -/
inductive Status where
  | continues
  | halts
  | faults (r : FaultRecord)
deriving DecidableEq, Repr

/-- The state as the driver creates it, before the load (R275): everything zero, PC and SP as the driver sets them. -/
def State.created (pcInit spInit : Word) : State :=
  { regs := { a := 0, b := 0, c := 0, d := 0, e := 0, h := 0, l := 0 }
    flags := { z := false, s := false, p := false, cy := false, ac := false }
    pc := pcInit
    sp := spInit
    inte := false
    mem := []
    steps := 0
    halted := false
    faultRecord := none }

/-- The machine after reset (R275). PC and SP are parameters in the spec; here 0x0000 each. DESIGN CHOICE (log entries 1, 2, 3). -/
def State.reset : State := State.created Config.ofReset.pcInit Config.ofReset.spInit

end Sys2Proof.Machine
end

