-- ==== Sys2Proof/Machine/Flags.lean ====
section
/-! DEFINITION. Every flag computation: Z, S, P from a result (R13), the adder and the subtractor with their two carries (R14,
R15), the flag policy of R32, the 17-bit sum of DAD (R126), the decimal adjust (R234), the PSW byte (R79) and the conditions
(R75). -/

namespace Sys2Proof.Machine

/-- The number of 1 bits of a byte. -/
def onesCount (v : Byte) : Nat :=
  (v.getLsbD 0).toNat + (v.getLsbD 1).toNat + (v.getLsbD 2).toNat + (v.getLsbD 3).toNat +
  (v.getLsbD 4).toNat + (v.getLsbD 5).toNat + (v.getLsbD 6).toNat + (v.getLsbD 7).toNat

/-- `parity8(v)` (R13): 1 when the number of 1 bits is even. -/
def parity8 (v : Byte) : Bool := decide (onesCount v % 2 = 0)

/-- `set_zsp(v)` (R13). -/
def Flags.setZsp (f : Flags) (v : Byte) : Flags :=
  { f with z := decide (v = 0), s := v.getLsbD 7, p := parity8 v }

/-! ## The 8-bit adder and subtractor -/

/-- The triple (r, cy, ac) of `add8` and `sub8`. -/
structure Sum8 where
  r : Byte
  cy : Bool
  ac : Bool
deriving DecidableEq, Repr

/-- The low nibble `v[3:0]` as a 5-bit value, wide enough for one carry. -/
def nibble (v : Byte) : BitVec 5 := (v.extractLsb' 0 4).setWidth 5

/-- A carry bit as an N-bit value. -/
def carryBits (n : Nat) (c : Bool) : BitVec n := BitVec.ofNat n c.toNat

/-- `add8(a, b, c)` (R14), through the 9-bit sum; AC is the carry out of bit 3. -/
def add8 (a b : Byte) (c : Bool) : Sum8 :=
  let s9 : BitVec 9 := a.setWidth 9 + b.setWidth 9 + carryBits 9 c
  let s5 : BitVec 5 := nibble a + nibble b + carryBits 5 c
  { r := s9.setWidth 8, cy := s9.getLsbD 8, ac := s5.getLsbD 4 }

/-- `sub8(a, b, c)` (R15): CY is bit 8 of the 16-bit difference, AC the carry out of bit 3 of `a + ~b + (1 - c)`. That sense
of AC is the spec's decision D3. UNVERIFIED (log entry 9). -/
def sub8 (a b : Byte) (c : Bool) : Sum8 :=
  let d16 : BitVec 16 := a.setWidth 16 - b.setWidth 16 - carryBits 16 c
  let s5 : BitVec 5 := nibble a + nibble (~~~b) + carryBits 5 (!c)
  { r := d16.setWidth 8, cy := d16.getLsbD 8, ac := s5.getLsbD 4 }

/-! ## The flag policy (R32) -/

/-- Rows ADD to CMP: Z, S, P from the result, CY and AC from the adder or subtractor. -/
def Flags.ofSum (f : Flags) (x : Sum8) : Flags := { f.setZsp x.r with cy := x.cy, ac := x.ac }

/-- Row ANA to ORI: Z, S, P from the result, CY and AC cleared (D4). -/
def Flags.ofLogic (f : Flags) (r : Byte) : Flags := { f.setZsp r with cy := false, ac := false }

/-- Rows INR and DCR: Z, S, P from the result, AC from the adder or subtractor, CY kept. -/
def Flags.ofIncDec (f : Flags) (x : Sum8) : Flags := { f.setZsp x.r with ac := x.ac }

/-- Rows DAD, the rotates, STC and CMC: CY alone. -/
def Flags.setCy (f : Flags) (c : Bool) : Flags := { f with cy := c }

/-! ## DAD -/

/-- `s17` of R126: the sum of two 16-bit values, with its carry in bit 16. -/
def dadSum (x y : Word) : BitVec 17 := x.setWidth 17 + y.setWidth 17

/-! ## DAA (R234, D21) -/

/-- The low digit is corrected. -/
def daaLowFix (a : Byte) (f : Flags) : Bool := decide (9 < (a.extractLsb' 0 4).toNat) || f.ac

/-- The high digit is corrected. -/
def daaHighFix (a : Byte) (f : Flags) : Bool :=
  let lo := (a.extractLsb' 0 4).toNat
  let hi := (a.extractLsb' 4 4).toNat
  decide (9 < hi) || f.cy || (decide (9 ≤ hi) && decide (9 < lo))

/-- `corr` of R234. -/
def daaCorrection (a : Byte) (f : Flags) : Byte :=
  (if daaLowFix a f then 0x06 else 0x00) + (if daaHighFix a f then 0x60 else 0x00)

/-- The correcting addition. -/
def daaSum (a : Byte) (f : Flags) : Sum8 := add8 a (daaCorrection a f) false

/-- The flags after DAA: Z, S, P from the result, AC from the correcting addition, CY set when the high digit was corrected
and kept otherwise. -/
def daaFlags (a : Byte) (f : Flags) : Flags :=
  { f.setZsp (daaSum a f).r with cy := f.cy || daaHighFix a f, ac := (daaSum a f).ac }

/-! ## The PSW byte (R79, D6, D7) -/

/-- A flag as one bit. -/
def flagBit (b : Bool) : BitVec 1 := BitVec.ofBool b

/-- `pack_flags()` = `{S, Z, 0, AC, 0, P, 1, CY}`. UNVERIFIED (log entry 8). -/
def Flags.pack (f : Flags) : Byte :=
  flagBit f.s ++ flagBit f.z ++ 0#1 ++ flagBit f.ac ++ 0#1 ++ flagBit f.p ++ 1#1 ++ flagBit f.cy

/-- `unpack_flags(b)`: bits 5, 3 and 1 are ignored. -/
def unpackFlags (b : Byte) : Flags :=
  { s := b.getLsbD 7, z := b.getLsbD 6, ac := b.getLsbD 4, p := b.getLsbD 2, cy := b.getLsbD 0 }

/-! ## Conditions (R75) -/

/-- The condition of a conditional jump, call or return, in the order of the codes. -/
inductive Cond where
  | nz | z | nc | c | po | pe | p | m
deriving DecidableEq, Repr

/-- `cond(ccc)`. -/
def Flags.cond (f : Flags) : Cond → Bool
  | .nz => !f.z
  | .z => f.z
  | .nc => !f.cy
  | .c => f.cy
  | .po => !f.p
  | .pe => f.p
  | .p => !f.s
  | .m => f.s

end Sys2Proof.Machine
end

