-- ==== Sys2Proof/Machine/Ops.lean ====
section
/-! DEFINITION. The operations every meaning is made of: memory access (R9), the stack (R65, R66), the program counter (R34),
the end of a completed step (R40), and taking the one exception (R254). There is no return from it (R257): the spec gives the
machine no instruction and no transition that leaves a state with a fault record. -/

namespace Sys2Proof.Machine

/-! ## Memory (R9) -/

/-- `MemRead(addr, 1)`. -/
def State.readByte (s : State) (addr : Word) : Byte := s.mem.read addr.toNat

/-- `MemWrite(addr, 1, v)`. -/
def State.writeByte (s : State) (addr : Word) (v : Byte) : State :=
  { s with mem := s.mem.write addr.toNat v }

/-- `MemRead(addr, 2)`: the low byte at `addr`, the high byte at `addr + 1` modulo 65,536. -/
def State.readWord (s : State) (addr : Word) : Word :=
  joinBytes (s.readByte (addr + 1)) (s.readByte addr)

/-- `MemWrite(addr, 2, v)`: the low byte first, then the high byte. -/
def State.writeWord (s : State) (addr v : Word) : State :=
  (s.writeByte addr (loByte v)).writeByte (addr + 1) (hiByte v)

/-! ## The stack (R65, R66) -/

/-- `push16(v)`: the high byte at SP - 1, then the low byte at SP - 2, then SP - 2 into SP. -/
def State.push16 (s : State) (v : Word) : State :=
  let s' := (s.writeByte (s.sp - 1) (hiByte v)).writeByte (s.sp - 2) (loByte v)
  { s' with sp := s.sp - 2 }

/-- The value `pop16()` returns: the low byte from SP, the high byte from SP + 1. -/
def State.popValue (s : State) : Word := s.readWord s.sp

/-- What `pop16()` does to the state: SP + 2 into SP. -/
def State.popped (s : State) : State := { s with sp := s.sp + 2 }

/-! ## The program counter and the end of a step -/

/-- PC past an instruction of `n` bytes (R34), modulo 65,536 (R35). -/
def State.advance (s : State) (n : Nat) : State := { s with pc := s.pc + BitVec.ofNat 16 n }

/-- PC <- target. -/
def State.jump (s : State) (target : Word) : State := { s with pc := target }

/-- The step is completed: `steps` counts it (R40, D13). -/
def State.retire (s : State) : State := { s with steps := s.steps + 1 }

/-- A completed instruction's outcome. -/
def finish (s : State) : Host.Outcome State Fault Refusal := .next s.retire

/-! ## Flags, INTE and the halt latch -/

/-- Replaces the five flags. -/
def State.setFlags (s : State) (f : Flags) : State := { s with flags := f }

/-- INTE <- v (R38). -/
def State.setInte (s : State) (v : Bool) : State := { s with inte := v }

/-- halted <- 1 (R41). -/
def State.halt (s : State) : State := { s with halted := true }

/-! ## The exception (R250, R254) -/

/-- `raise UnimplementedOpcode(op, pc0, steps)`: writes the fault record and changes nothing else. PC still holds pc0, the
address of the offending byte, and keeps it (D12). -/
def State.raiseUnimplementedOpcode (s : State) (op : Byte) : State :=
  { s with faultRecord := some { opcode := op, pc := s.pc, steps := s.steps } }

/-- The fault a state with this record answers to every further step (R257, U11). -/
def FaultRecord.toFault (r : FaultRecord) : Fault := .unimplementedOpcode r.opcode r.pc r.steps

/-- The status of the step that left this state (R11, C7): the fault when it wrote the record, else `halt` when the core is
halted (the HLT step and every step after it, R80), else `continue`. -/
def State.status (s : State) : Status :=
  match s.faultRecord with
  | some r => .faults r
  | none => if s.halted then .halts else .continues

/-! ## The bytes of the next instruction (R52, R80) -/

/-- The byte `k` places after PC, modulo 65,536 (R35). -/
def State.codeByte (s : State) (k : Nat) : Byte := s.readByte (s.pc + BitVec.ofNat 16 k)

end Sys2Proof.Machine
end

