-- ==== Sys2Proof/Syntax.lean ====
section
/-! DEFINITION. The instructions of the opcode map (R82): one constructor per mnemonic of spec/opcode_table.json, its operands
as fields (R71). `inp` is the row IN, whose name is a word of Lean's. -/

namespace Sys2Proof

/-- An operand field `ddd` or `sss` (R72): a register, or `m`, the memory byte at HL (R23). In the order of the codes. -/
inductive Operand8 where
  | b | c | d | e | h | l | m | a
deriving DecidableEq, Repr

/-- A pair field of LXI, INX, DCX and DAD (R73, first row). -/
inductive RegPair where
  | bc | de | hl | sp
deriving DecidableEq, Repr

/-- A pair field of PUSH and POP (R73, second row): code 3 is A with the flag byte. -/
inductive StackPair where
  | bc | de | hl | psw
deriving DecidableEq, Repr

/-- The pair of STAX and LDAX (R73, third row). -/
inductive IndexPair where
  | bc | de
deriving DecidableEq, Repr

/-- The instruction set. Each constructor names the rules that give it. -/
inductive Instr where
  -- 40_nop_load_move.md
  /-- R100 -/
  | nop
  /-- R101, R102 -/
  | mvi (dst : Operand8) (d8 : Byte)
  /-- R103 -/
  | lxi (rp : RegPair) (d16 : Word)
  /-- R104, R105, R106 -/
  | mov (dst src : Operand8)
  -- 41_incdec_dad.md
  /-- R120, R121 -/
  | inr (dst : Operand8)
  /-- R122, R123 -/
  | dcr (dst : Operand8)
  /-- R124 -/
  | inx (rp : RegPair)
  /-- R125 -/
  | dcx (rp : RegPair)
  /-- R126 -/
  | dad (rp : RegPair)
  -- 42_accumulator_alu.md
  /-- R140 -/
  | add (src : Operand8)
  /-- R141 -/
  | adc (src : Operand8)
  /-- R142 -/
  | sub (src : Operand8)
  /-- R143 -/
  | sbb (src : Operand8)
  /-- R144 -/
  | ana (src : Operand8)
  /-- R145 -/
  | xra (src : Operand8)
  /-- R146 -/
  | ora (src : Operand8)
  /-- R147 -/
  | cmp (src : Operand8)
  /-- R148 -/
  | adi (d8 : Byte)
  /-- R149 -/
  | aci (d8 : Byte)
  /-- R150 -/
  | sui (d8 : Byte)
  /-- R151 -/
  | sbi (d8 : Byte)
  /-- R152 -/
  | ani (d8 : Byte)
  /-- R153 -/
  | xri (d8 : Byte)
  /-- R154 -/
  | ori (d8 : Byte)
  /-- R155 -/
  | cpi (d8 : Byte)
  -- 43_memory_direct_indirect.md
  /-- R170 -/
  | sta (a16 : Word)
  /-- R171 -/
  | lda (a16 : Word)
  /-- R172 -/
  | shld (a16 : Word)
  /-- R173 -/
  | lhld (a16 : Word)
  /-- R174 -/
  | stax (rp : IndexPair)
  /-- R175 -/
  | ldax (rp : IndexPair)
  -- 44_stack.md
  /-- R180, R182 -/
  | push (rp : StackPair)
  /-- R181, R183 -/
  | pop (rp : StackPair)
  -- 45_control_flow.md
  /-- R190 -/
  | jmp (a16 : Word)
  /-- R191 -/
  | call (a16 : Word)
  /-- R192 -/
  | ret
  /-- R193 -/
  | jnz (a16 : Word)
  /-- R194 -/
  | jz (a16 : Word)
  /-- R195 -/
  | jnc (a16 : Word)
  /-- R196 -/
  | jc (a16 : Word)
  /-- R197 -/
  | jpo (a16 : Word)
  /-- R198 -/
  | jpe (a16 : Word)
  /-- R199 -/
  | jp (a16 : Word)
  /-- R200 -/
  | jm (a16 : Word)
  /-- R201 -/
  | cnz (a16 : Word)
  /-- R202 -/
  | cz (a16 : Word)
  /-- R203 -/
  | cnc (a16 : Word)
  /-- R204 -/
  | cc (a16 : Word)
  /-- R205 -/
  | cpo (a16 : Word)
  /-- R206 -/
  | cpe (a16 : Word)
  /-- R207 -/
  | cp (a16 : Word)
  /-- R208 -/
  | cm (a16 : Word)
  /-- R209 -/
  | rnz
  /-- R210 -/
  | rz
  /-- R211 -/
  | rnc
  /-- R212 -/
  | rc
  /-- R213 -/
  | rpo
  /-- R214 -/
  | rpe
  /-- R215 -/
  | rp
  /-- R216 -/
  | rm
  -- 46_exchange_rotate.md
  /-- R220 -/
  | xchg
  /-- R221 -/
  | rrc
  -- 47_io_interrupt_control.md
  /-- R225 -/
  | out (port : Byte)
  /-- R226, the row IN -/
  | inp (port : Byte)
  /-- R227 -/
  | ei
  /-- R228 -/
  | di
  -- 48_unnamed_in_source.md
  /-- R230 -/
  | hlt
  /-- R231 -/
  | rlc
  /-- R232 -/
  | ral
  /-- R233 -/
  | rar
  /-- R234 -/
  | daa
  /-- R235 -/
  | cma
  /-- R236 -/
  | stc
  /-- R237 -/
  | cmc
  /-- R238 -/
  | xthl
  /-- R239 -/
  | pchl
  /-- R240 -/
  | sphl
  /-- R241 -/
  | rst (n : Fin 8)
  -- 30_encoding.md, 60_exceptions.md
  /-- R83, R250: an opcode byte with no defined behaviour -/
  | undefined (op : Byte)
deriving DecidableEq, Repr

end Sys2Proof
end

