-- ==== Sys2Proof/Machine/Operands.lean ====
section
/-! DEFINITION. Every operand form: a register or M (R23, R72), a register pair or SP (R22, R73), the pair that addresses
memory in STAX and LDAX (R174), the accumulator. -/

namespace Sys2Proof.Machine

/-! ## Pairs (R22): the first-named register is the high byte -/

/-- The value of `pair[rp]`. -/
def State.readPair (s : State) : RegPair → Word
  | .bc => joinBytes s.regs.b s.regs.c
  | .de => joinBytes s.regs.d s.regs.e
  | .hl => joinBytes s.regs.h s.regs.l
  | .sp => s.sp

/-- `pair[rp] <- v`. -/
def State.writePair (s : State) (rp : RegPair) (v : Word) : State :=
  match rp with
  | .bc => { s with regs := { s.regs with b := hiByte v, c := loByte v } }
  | .de => { s with regs := { s.regs with d := hiByte v, e := loByte v } }
  | .hl => { s with regs := { s.regs with h := hiByte v, l := loByte v } }
  | .sp => { s with sp := v }

/-- HL, the pointer behind the operand M. -/
def State.hl (s : State) : Word := s.readPair .hl

/-- The address of STAX and LDAX. -/
def State.indexAddr (s : State) : IndexPair → Word
  | .bc => s.readPair .bc
  | .de => s.readPair .de

/-! ## Byte operands (R72) -/

/-- The value of `reg[code]`, or of M. -/
def State.readOperand (s : State) : Operand8 → Byte
  | .b => s.regs.b
  | .c => s.regs.c
  | .d => s.regs.d
  | .e => s.regs.e
  | .h => s.regs.h
  | .l => s.regs.l
  | .m => s.readByte s.hl
  | .a => s.regs.a

/-- `reg[code] <- v`, or `MemWrite(HL, 1, v)` for M. -/
def State.writeOperand (s : State) (dst : Operand8) (v : Byte) : State :=
  match dst with
  | .b => { s with regs := { s.regs with b := v } }
  | .c => { s with regs := { s.regs with c := v } }
  | .d => { s with regs := { s.regs with d := v } }
  | .e => { s with regs := { s.regs with e := v } }
  | .h => { s with regs := { s.regs with h := v } }
  | .l => { s with regs := { s.regs with l := v } }
  | .m => s.writeByte s.hl v
  | .a => { s with regs := { s.regs with a := v } }

/-- A <- v (R21). -/
def State.setA (s : State) (v : Byte) : State := s.writeOperand .a v

end Sys2Proof.Machine
end

