-- ==== Sys2Proof/Machine/Alu.lean ====
section
/-! DEFINITION. 42_accumulator_alu.md: the eight operations between A and a register, M or an immediate byte. Each operation is
said once over its second operand `v`; a register form reads `v` after PC has moved past its one byte, an immediate form moves
PC past two. -/

namespace Sys2Proof.Machine

/-! ## The operations -/

/-- The result to A, all five flags from the sum or difference. -/
def State.putSum (s : State) (x : Sum8) : State := (s.setA x.r).setFlags (s.flags.ofSum x)

/-- The flags of the difference alone (CMP, CPI). -/
def State.putCompare (s : State) (x : Sum8) : State := s.setFlags (s.flags.ofSum x)

/-- The result to A, Z, S and P from it, CY and AC cleared. -/
def State.putLogic (s : State) (r : Byte) : State := (s.setA r).setFlags (s.flags.ofLogic r)

/-- A + v + c. -/
def State.addA (s : State) (v : Byte) (c : Bool) : State := s.putSum (add8 s.regs.a v c)

/-- A - v - c. -/
def State.subA (s : State) (v : Byte) (c : Bool) : State := s.putSum (sub8 s.regs.a v c)

/-- A - v, for its flags; A keeps its value. -/
def State.compareA (s : State) (v : Byte) : State := s.putCompare (sub8 s.regs.a v false)

/-! ## Register and M forms -/

/-- R140. -/
def execAdd (src : Operand8) (s : State) : Host.Outcome State Fault Refusal :=
  let s := s.advance 1
  finish (s.addA (s.readOperand src) false)

/-- R141. -/
def execAdc (src : Operand8) (s : State) : Host.Outcome State Fault Refusal :=
  let s := s.advance 1
  finish (s.addA (s.readOperand src) s.flags.cy)

/-- R142. -/
def execSub (src : Operand8) (s : State) : Host.Outcome State Fault Refusal :=
  let s := s.advance 1
  finish (s.subA (s.readOperand src) false)

/-- R143. -/
def execSbb (src : Operand8) (s : State) : Host.Outcome State Fault Refusal :=
  let s := s.advance 1
  finish (s.subA (s.readOperand src) s.flags.cy)

/-- R144. -/
def execAna (src : Operand8) (s : State) : Host.Outcome State Fault Refusal :=
  let s := s.advance 1
  finish (s.putLogic (s.regs.a &&& (s.readOperand src)))

/-- R145. -/
def execXra (src : Operand8) (s : State) : Host.Outcome State Fault Refusal :=
  let s := s.advance 1
  finish (s.putLogic (s.regs.a ^^^ (s.readOperand src)))

/-- R146. -/
def execOra (src : Operand8) (s : State) : Host.Outcome State Fault Refusal :=
  let s := s.advance 1
  finish (s.putLogic (s.regs.a ||| (s.readOperand src)))

/-- R147. -/
def execCmp (src : Operand8) (s : State) : Host.Outcome State Fault Refusal :=
  let s := s.advance 1
  finish (s.compareA (s.readOperand src))

/-! ## Immediate forms -/

/-- R148. -/
def execAdi (d8 : Byte) (s : State) : Host.Outcome State Fault Refusal :=
  let s := s.advance 2
  finish (s.addA d8 false)

/-- R149. -/
def execAci (d8 : Byte) (s : State) : Host.Outcome State Fault Refusal :=
  let s := s.advance 2
  finish (s.addA d8 s.flags.cy)

/-- R150. -/
def execSui (d8 : Byte) (s : State) : Host.Outcome State Fault Refusal :=
  let s := s.advance 2
  finish (s.subA d8 false)

/-- R151. -/
def execSbi (d8 : Byte) (s : State) : Host.Outcome State Fault Refusal :=
  let s := s.advance 2
  finish (s.subA d8 s.flags.cy)

/-- R152. -/
def execAni (d8 : Byte) (s : State) : Host.Outcome State Fault Refusal :=
  let s := s.advance 2
  finish (s.putLogic (s.regs.a &&& d8))

/-- R153. -/
def execXri (d8 : Byte) (s : State) : Host.Outcome State Fault Refusal :=
  let s := s.advance 2
  finish (s.putLogic (s.regs.a ^^^ d8))

/-- R154. -/
def execOri (d8 : Byte) (s : State) : Host.Outcome State Fault Refusal :=
  let s := s.advance 2
  finish (s.putLogic (s.regs.a ||| d8))

/-- R155. -/
def execCpi (d8 : Byte) (s : State) : Host.Outcome State Fault Refusal :=
  let s := s.advance 2
  finish (s.compareA d8)

end Sys2Proof.Machine
end

