-- ==== Sys2Proof/Machine/Control.lean ====
section
/-! DEFINITION. 45_control_flow.md: jumps, calls and returns. The target is absolute; the return address is the PC past the
whole instruction; a conditional instruction that is not taken has only moved PC past itself. -/

namespace Sys2Proof.Machine

/-! ## The operations, on a state whose PC is past the instruction -/

/-- A taken call: the return address is pushed, then PC <- target (R191). -/
def State.callTo (s : State) (target : Word) : State := (s.push16 s.pc).jump target

/-- A taken return: PC <- pop16() (R192). -/
def State.returnFrom (s : State) : State := s.popped.jump s.popValue

/-- A jump taken iff the condition holds. -/
def State.jumpIf (s : State) (cond : Cond) (target : Word) : State := if s.flags.cond cond then s.jump target else s

/-- A call taken iff the condition holds. -/
def State.callIf (s : State) (cond : Cond) (target : Word) : State := if s.flags.cond cond then s.callTo target else s

/-- A return taken iff the condition holds. -/
def State.returnIf (s : State) (cond : Cond) : State := if s.flags.cond cond then s.returnFrom else s

/-! ## Unconditional -/

/-- R190. -/
def execJmp (a16 : Word) (s : State) : Host.Outcome State Fault Refusal := finish ((s.advance 3).jump a16)

/-- R191. -/
def execCall (a16 : Word) (s : State) : Host.Outcome State Fault Refusal := finish ((s.advance 3).callTo a16)

/-- R192. -/
def execRet (s : State) : Host.Outcome State Fault Refusal := finish (s.advance 1).returnFrom

/-! ## Conditional jumps -/

/-- R193: taken iff Z = 0. -/
def execJnz (a16 : Word) (s : State) : Host.Outcome State Fault Refusal := finish ((s.advance 3).jumpIf .nz a16)

/-- R194: taken iff Z = 1. -/
def execJz (a16 : Word) (s : State) : Host.Outcome State Fault Refusal := finish ((s.advance 3).jumpIf .z a16)

/-- R195: taken iff CY = 0. -/
def execJnc (a16 : Word) (s : State) : Host.Outcome State Fault Refusal := finish ((s.advance 3).jumpIf .nc a16)

/-- R196: taken iff CY = 1. -/
def execJc (a16 : Word) (s : State) : Host.Outcome State Fault Refusal := finish ((s.advance 3).jumpIf .c a16)

/-- R197: taken iff P = 0. -/
def execJpo (a16 : Word) (s : State) : Host.Outcome State Fault Refusal := finish ((s.advance 3).jumpIf .po a16)

/-- R198: taken iff P = 1. -/
def execJpe (a16 : Word) (s : State) : Host.Outcome State Fault Refusal := finish ((s.advance 3).jumpIf .pe a16)

/-- R199: taken iff S = 0. -/
def execJp (a16 : Word) (s : State) : Host.Outcome State Fault Refusal := finish ((s.advance 3).jumpIf .p a16)

/-- R200: taken iff S = 1. -/
def execJm (a16 : Word) (s : State) : Host.Outcome State Fault Refusal := finish ((s.advance 3).jumpIf .m a16)

/-! ## Conditional calls -/

/-- R201: taken iff Z = 0. -/
def execCnz (a16 : Word) (s : State) : Host.Outcome State Fault Refusal := finish ((s.advance 3).callIf .nz a16)

/-- R202: taken iff Z = 1. -/
def execCz (a16 : Word) (s : State) : Host.Outcome State Fault Refusal := finish ((s.advance 3).callIf .z a16)

/-- R203: taken iff CY = 0. -/
def execCnc (a16 : Word) (s : State) : Host.Outcome State Fault Refusal := finish ((s.advance 3).callIf .nc a16)

/-- R204: taken iff CY = 1. -/
def execCc (a16 : Word) (s : State) : Host.Outcome State Fault Refusal := finish ((s.advance 3).callIf .c a16)

/-- R205: taken iff P = 0. -/
def execCpo (a16 : Word) (s : State) : Host.Outcome State Fault Refusal := finish ((s.advance 3).callIf .po a16)

/-- R206: taken iff P = 1. -/
def execCpe (a16 : Word) (s : State) : Host.Outcome State Fault Refusal := finish ((s.advance 3).callIf .pe a16)

/-- R207: taken iff S = 0. -/
def execCp (a16 : Word) (s : State) : Host.Outcome State Fault Refusal := finish ((s.advance 3).callIf .p a16)

/-- R208: taken iff S = 1. -/
def execCm (a16 : Word) (s : State) : Host.Outcome State Fault Refusal := finish ((s.advance 3).callIf .m a16)

/-! ## Conditional returns -/

/-- R209: taken iff Z = 0. -/
def execRnz (s : State) : Host.Outcome State Fault Refusal := finish ((s.advance 1).returnIf .nz)

/-- R210: taken iff Z = 1. -/
def execRz (s : State) : Host.Outcome State Fault Refusal := finish ((s.advance 1).returnIf .z)

/-- R211: taken iff CY = 0. -/
def execRnc (s : State) : Host.Outcome State Fault Refusal := finish ((s.advance 1).returnIf .nc)

/-- R212: taken iff CY = 1. -/
def execRc (s : State) : Host.Outcome State Fault Refusal := finish ((s.advance 1).returnIf .c)

/-- R213: taken iff P = 0. -/
def execRpo (s : State) : Host.Outcome State Fault Refusal := finish ((s.advance 1).returnIf .po)

/-- R214: taken iff P = 1. -/
def execRpe (s : State) : Host.Outcome State Fault Refusal := finish ((s.advance 1).returnIf .pe)

/-- R215: taken iff S = 0. -/
def execRp (s : State) : Host.Outcome State Fault Refusal := finish ((s.advance 1).returnIf .p)

/-- R216: taken iff S = 1. -/
def execRm (s : State) : Host.Outcome State Fault Refusal := finish ((s.advance 1).returnIf .m)

end Sys2Proof.Machine
end

