-- ==== Sys2Proof/Machine/ExchangeRotate.lean ====
section
/-! DEFINITION. 46_exchange_rotate.md: XCHG and RRC; and the other exchanges and rotates, which 48_unnamed_in_source.md
gives: RLC, RAL, RAR, XTHL. A rotate writes CY and no other flag. -/

namespace Sys2Proof.Machine

/-- R220: both pairs are read before either is written. -/
def execXchg (s : State) : Host.Outcome State Fault Refusal :=
  let s := s.advance 1
  finish ((s.writePair .hl (s.readPair .de)).writePair .de s.hl)

/-- The shared end of the rotates: the rotated value to A, the bit rotated out to CY. -/
def State.putRotate (s : State) (r : Byte) (out : Bool) : State := (s.setA r).setFlags (s.flags.setCy out)

/-- R221: old bit 0 to CY and to new bit 7. -/
def execRrc (s : State) : Host.Outcome State Fault Refusal :=
  let s := s.advance 1
  let a := s.regs.a
  finish (s.putRotate (flagBit (a.getLsbD 0) ++ a.extractLsb' 1 7) (a.getLsbD 0))

/-- R231: old bit 7 to CY and to new bit 0. -/
def execRlc (s : State) : Host.Outcome State Fault Refusal :=
  let s := s.advance 1
  let a := s.regs.a
  finish (s.putRotate (a.extractLsb' 0 7 ++ flagBit (a.getLsbD 7)) (a.getLsbD 7))

/-- R232: old bit 7 to CY, old CY to new bit 0. -/
def execRal (s : State) : Host.Outcome State Fault Refusal :=
  let s := s.advance 1
  let a := s.regs.a
  finish (s.putRotate (a.extractLsb' 0 7 ++ flagBit s.flags.cy) (a.getLsbD 7))

/-- R233: old bit 0 to CY, old CY to new bit 7. -/
def execRar (s : State) : Host.Outcome State Fault Refusal :=
  let s := s.advance 1
  let a := s.regs.a
  finish (s.putRotate (flagBit s.flags.cy ++ a.extractLsb' 1 7) (a.getLsbD 0))

/-- R238: HL with the bytes at SP and SP + 1; both are read before either is written (R67). -/
def execXthl (s : State) : Host.Outcome State Fault Refusal :=
  let s := s.advance 1
  finish ((s.writeWord s.sp s.hl).writePair .hl (s.readWord s.sp))

end Sys2Proof.Machine
end

