-- ==== Sys2Proof/Machine/IncDec.lean ====
section
/-! DEFINITION. 41_incdec_dad.md: INR, DCR, INX, DCX, DAD. -/

namespace Sys2Proof.Machine

/-- The shared end of INR and DCR: the result to the operand, the flags but CY from it. -/
def State.putIncDec (s : State) (dst : Operand8) (x : Sum8) : State :=
  (s.writeOperand dst x.r).setFlags (s.flags.ofIncDec x)

/-- R120 (a register), R121 (M). -/
def execInr (dst : Operand8) (s : State) : Host.Outcome State Fault Refusal :=
  let s := s.advance 1
  finish (s.putIncDec dst (add8 (s.readOperand dst) 1 false))

/-- R122 (a register), R123 (M). -/
def execDcr (dst : Operand8) (s : State) : Host.Outcome State Fault Refusal :=
  let s := s.advance 1
  finish (s.putIncDec dst (sub8 (s.readOperand dst) 1 false))

/-- R124. -/
def execInx (rp : RegPair) (s : State) : Host.Outcome State Fault Refusal :=
  let s := s.advance 1
  finish (s.writePair rp (s.readPair rp + 1))

/-- R125. -/
def execDcx (rp : RegPair) (s : State) : Host.Outcome State Fault Refusal :=
  let s := s.advance 1
  finish (s.writePair rp (s.readPair rp - 1))

/-- R126. -/
def execDad (rp : RegPair) (s : State) : Host.Outcome State Fault Refusal :=
  let s := s.advance 1
  let s17 := dadSum s.hl (s.readPair rp)
  finish ((s.writePair .hl (s17.setWidth 16)).setFlags (s.flags.setCy (s17.getLsbD 16)))

end Sys2Proof.Machine
end

