-- ==== Sys2Proof/Machine/LoadMove.lean ====
section
/-! DEFINITION. 40_nop_load_move.md: NOP, MVI, LXI, MOV. No flag is written. -/

namespace Sys2Proof.Machine

/-- R100. -/
def execNop (s : State) : Host.Outcome State Fault Refusal := finish (s.advance 1)

/-- R101 (a register), R102 (M). -/
def execMvi (dst : Operand8) (d8 : Byte) (s : State) : Host.Outcome State Fault Refusal :=
  finish ((s.advance 2).writeOperand dst d8)

/-- R103. -/
def execLxi (rp : RegPair) (d16 : Word) (s : State) : Host.Outcome State Fault Refusal :=
  finish ((s.advance 3).writePair rp d16)

/-- R104 (register to register), R105 (from M), R106 (to M): the source, and with M its address, is read before the
destination is written. -/
def execMov (dst src : Operand8) (s : State) : Host.Outcome State Fault Refusal :=
  let s := s.advance 1
  finish (s.writeOperand dst (s.readOperand src))

end Sys2Proof.Machine
end

