-- ==== Sys2Proof/Machine/MemoryAccess.lean ====
section
/-! DEFINITION. 43_memory_direct_indirect.md: STA, LDA, SHLD, LHLD, STAX, LDAX. No flag is written. -/

namespace Sys2Proof.Machine

/-- R170. -/
def execSta (a16 : Word) (s : State) : Host.Outcome State Fault Refusal :=
  let s := s.advance 3
  finish (s.writeByte a16 s.regs.a)

/-- R171. -/
def execLda (a16 : Word) (s : State) : Host.Outcome State Fault Refusal :=
  let s := s.advance 3
  finish (s.setA (s.readByte a16))

/-- R172: L at the address, H at the next. UNVERIFIED placement (D15, log entry 10). -/
def execShld (a16 : Word) (s : State) : Host.Outcome State Fault Refusal :=
  let s := s.advance 3
  finish (s.writeWord a16 s.hl)

/-- R173. -/
def execLhld (a16 : Word) (s : State) : Host.Outcome State Fault Refusal :=
  let s := s.advance 3
  finish (s.writePair .hl (s.readWord a16))

/-- R174. -/
def execStax (rp : IndexPair) (s : State) : Host.Outcome State Fault Refusal :=
  let s := s.advance 1
  finish (s.writeByte (s.indexAddr rp) s.regs.a)

/-- R175. -/
def execLdax (rp : IndexPair) (s : State) : Host.Outcome State Fault Refusal :=
  let s := s.advance 1
  finish (s.setA (s.readByte (s.indexAddr rp)))

end Sys2Proof.Machine
end

