-- ==== Sys2Proof/Machine/Stack.lean ====
section
/-! DEFINITION. 44_stack.md: PUSH and POP of BC, DE, HL and PSW. -/

namespace Sys2Proof.Machine

/-- The 16-bit value of a stack operand: a pair, or `{A, f}` with the flag byte `f` (R180, R182). -/
def State.readStackPair (s : State) : StackPair → Word
  | .bc => s.readPair .bc
  | .de => s.readPair .de
  | .hl => s.readPair .hl
  | .psw => joinBytes s.regs.a s.flags.pack

/-- A popped value to a stack operand: a pair, or A and all five flags (R181, R183). -/
def State.writeStackPair (s : State) (rp : StackPair) (v : Word) : State :=
  match rp with
  | .bc => s.writePair .bc v
  | .de => s.writePair .de v
  | .hl => s.writePair .hl v
  | .psw => (s.setA (hiByte v)).setFlags (unpackFlags (loByte v))

/-- R180 (a pair), R182 (PSW). -/
def execPush (rp : StackPair) (s : State) : Host.Outcome State Fault Refusal :=
  let s := s.advance 1
  finish (s.push16 (s.readStackPair rp))

/-- R181 (a pair), R183 (PSW). -/
def execPop (rp : StackPair) (s : State) : Host.Outcome State Fault Refusal :=
  let s := s.advance 1
  finish (s.popped.writeStackPair rp s.popValue)

end Sys2Proof.Machine
end

