-- ==== Sys2Proof/Machine/System.lean ====
section
/-! DEFINITION. 47_io_interrupt_control.md: OUT, IN, EI, DI; the rest of 48_unnamed_in_source.md: HLT, DAA, CMA, STC, CMC, PCHL,
SPHL, RST; and the undefined opcodes of R83, whose execution is the exception of 60_exceptions.md. -/

namespace Sys2Proof.Machine

/-! ## I/O stubs and interrupt control -/

/-- R225: the port number is consumed and discarded; A is not read. -/
def execOut (_port : Byte) (s : State) : Host.Outcome State Fault Refusal := finish (s.advance 2)

/-- R226: the port number is consumed and discarded; A is not written. -/
def execIn (_port : Byte) (s : State) : Host.Outcome State Fault Refusal := finish (s.advance 2)

/-- R227: at once (D8). -/
def execEi (s : State) : Host.Outcome State Fault Refusal := finish ((s.advance 1).setInte true)

/-- R228. -/
def execDi (s : State) : Host.Outcome State Fault Refusal := finish ((s.advance 1).setInte false)

/-! ## Halt -/

/-- R230: PC is past the HLT, the step is counted, and the latch is set; `State.status` then says `halts`. -/
def execHlt (s : State) : Host.Outcome State Fault Refusal := finish (s.advance 1).halt

/-! ## Accumulator and carry -/

/-- R234. -/
def execDaa (s : State) : Host.Outcome State Fault Refusal :=
  let s := s.advance 1
  finish ((s.setA (daaSum s.regs.a s.flags).r).setFlags (daaFlags s.regs.a s.flags))

/-- R235: no flag is written. -/
def execCma (s : State) : Host.Outcome State Fault Refusal :=
  let s := s.advance 1
  finish (s.setA (~~~s.regs.a))

/-- R236. -/
def execStc (s : State) : Host.Outcome State Fault Refusal :=
  let s := s.advance 1
  finish (s.setFlags (s.flags.setCy true))

/-- R237. -/
def execCmc (s : State) : Host.Outcome State Fault Refusal :=
  let s := s.advance 1
  finish (s.setFlags (s.flags.setCy (!s.flags.cy)))

/-! ## HL to PC and SP, restart -/

/-- R239. -/
def execPchl (s : State) : Host.Outcome State Fault Refusal :=
  let s := s.advance 1
  finish (s.jump s.hl)

/-- R240. -/
def execSphl (s : State) : Host.Outcome State Fault Refusal :=
  let s := s.advance 1
  finish (s.writePair .sp s.hl)

/-- R76: the address `8 * nnn`. -/
def rstTarget (n : Fin 8) : Word := BitVec.ofNat 16 (8 * n.val)

/-- R241. -/
def execRst (n : Fin 8) (s : State) : Host.Outcome State Fault Refusal := finish ((s.advance 1).callTo (rstTarget n))

/-! ## The undefined opcodes -/

/-- R250, R254: takes the exception; no step is counted and PC stays at the byte. -/
def execUndefined (op : Byte) (s : State) : Host.Outcome State Fault Refusal := .next (s.raiseUnimplementedOpcode op)

end Sys2Proof.Machine
end

