-- ==== Sys2Proof/WellFormed.lean ====
section
/-! DEFINITION. Which terms of `Instr` are instructions: those some byte sequence encodes. Two terms are not: MOV M,M, whose
pattern `01 110 110` is HLT (R106), and `undefined op` for a byte outside the twelve of R83. The operand types admit no
other term without an encoding. -/

namespace Sys2Proof

/-- R106: the pattern of MOV M,M is HLT, so there is no MOV M,M. -/
def movOperandsOk (dst src : Operand8) : Bool :=
  !(decide (dst = .m) && decide (src = .m))

/-- R83: the undefined opcodes are exactly these bytes. -/
def undefinedOpcodeOk (op : Byte) : Bool :=
  decide (op ∈ undefinedOpcodes)

/-- The instruction has an encoding. -/
def Instr.wf : Instr → Bool
  | .mov dst src => movOperandsOk dst src
  | .undefined op => undefinedOpcodeOk op
  | .nop | .mvi _ _ | .lxi _ _ => true
  | .inr _ | .dcr _ | .inx _ | .dcx _ | .dad _ => true
  | .add _ | .adc _ | .sub _ | .sbb _ | .ana _ | .xra _ | .ora _ | .cmp _ => true
  | .adi _ | .aci _ | .sui _ | .sbi _ | .ani _ | .xri _ | .ori _ | .cpi _ => true
  | .sta _ | .lda _ | .shld _ | .lhld _ | .stax _ | .ldax _ => true
  | .push _ | .pop _ | .jmp _ | .call _ | .ret => true
  | .jnz _ | .jz _ | .jnc _ | .jc _ | .jpo _ | .jpe _ | .jp _ | .jm _ => true
  | .cnz _ | .cz _ | .cnc _ | .cc _ | .cpo _ | .cpe _ | .cp _ | .cm _ => true
  | .rnz | .rz | .rnc | .rc | .rpo | .rpe | .rp | .rm => true
  | .xchg | .rrc | .out _ | .inp _ | .ei | .di => true
  | .hlt | .rlc | .ral | .rar | .daa | .cma | .stc | .cmc => true
  | .xthl | .pchl | .sphl | .rst _ => true

end Sys2Proof
end

