-- ==== Sys2Proof/Decode.lean ====
section
/-! DEFINITION. The decoder, from the opcode byte and its operand bytes to an instruction (R70 to R84), and after it the
encoder, written from the same tables. Decoding looks at nothing but the bytes (R81). The opcode map is UNVERIFIED but for the
four anchors of R87 (log entry 7). -/

namespace Sys2Proof

open Sys2Proof.Machine (hiByte loByte joinBytes)

/-! ## Fields of the opcode byte (R71) -/

/-- Bits 7:6. -/
def opTop (op : Byte) : Nat := (op.extractLsb' 6 2).toNat

/-- Bits 5:3: `ddd`, `ooo`, `ccc` or `nnn`. -/
def opMid (op : Byte) : Nat := (op.extractLsb' 3 3).toNat

/-- Bits 2:0: `sss`, or part of the opcode. -/
def opLow (op : Byte) : Nat := (op.extractLsb' 0 3).toNat

/-- Bits 5:4: `rp`. -/
def opPair (op : Byte) : Nat := (op.extractLsb' 4 2).toNat

/-- Bit 3, which tells the two columns of a pair instruction apart. -/
def opOdd (op : Byte) : Bool := op.getLsbD 3

/-! ## Codes to operands -/

/-- R72. -/
def operandOfCode : Nat → Operand8
  | 0 => .b
  | 1 => .c
  | 2 => .d
  | 3 => .e
  | 4 => .h
  | 5 => .l
  | 6 => .m
  | _ => .a

/-- R73, first row. -/
def regPairOfCode : Nat → RegPair
  | 0 => .bc
  | 1 => .de
  | 2 => .hl
  | _ => .sp

/-- R73, second row. -/
def stackPairOfCode : Nat → StackPair
  | 0 => .bc
  | 1 => .de
  | 2 => .hl
  | _ => .psw

/-! ## The opcode map (R82) -/

/-- What the opcode byte selects: an instruction that is complete, or one that still needs its immediate byte or its two
operand bytes (R71). -/
inductive OpForm where
  | op (i : Instr)
  | opD8 (mk : Byte → Instr)
  | opD16 (mk : Word → Instr)

/-- The bytes 0x00 to 0x3F of R82. -/
def opForm00 (op : Byte) : OpForm :=
  match opLow op with
  | 0 => if opMid op = 0 then .op .nop else .op (.undefined op)
  | 1 => if opOdd op then .op (.dad (regPairOfCode (opPair op))) else .opD16 (.lxi (regPairOfCode (opPair op)))
  | 2 =>
    match opMid op with
    | 0 => .op (.stax .bc)
    | 1 => .op (.ldax .bc)
    | 2 => .op (.stax .de)
    | 3 => .op (.ldax .de)
    | 4 => .opD16 .shld
    | 5 => .opD16 .lhld
    | 6 => .opD16 .sta
    | _ => .opD16 .lda
  | 3 => if opOdd op then .op (.dcx (regPairOfCode (opPair op))) else .op (.inx (regPairOfCode (opPair op)))
  | 4 => .op (.inr (operandOfCode (opMid op)))
  | 5 => .op (.dcr (operandOfCode (opMid op)))
  | 6 => .opD8 (.mvi (operandOfCode (opMid op)))
  | _ =>
    match opMid op with
    | 0 => .op .rlc
    | 1 => .op .rrc
    | 2 => .op .ral
    | 3 => .op .rar
    | 4 => .op .daa
    | 5 => .op .cma
    | 6 => .op .stc
    | _ => .op .cmc

/-- The bytes 0x40 to 0x7F of R82: MOV, with HLT in the place of MOV M,M. -/
def opForm01 (op : Byte) : OpForm :=
  if opMid op = 6 ∧ opLow op = 6 then .op .hlt
  else .op (.mov (operandOfCode (opMid op)) (operandOfCode (opLow op)))

/-- The bytes 0x80 to 0xBF of R82: the register forms of R74. -/
def opForm10 (op : Byte) : OpForm :=
  match opMid op with
  | 0 => .op (.add (operandOfCode (opLow op)))
  | 1 => .op (.adc (operandOfCode (opLow op)))
  | 2 => .op (.sub (operandOfCode (opLow op)))
  | 3 => .op (.sbb (operandOfCode (opLow op)))
  | 4 => .op (.ana (operandOfCode (opLow op)))
  | 5 => .op (.xra (operandOfCode (opLow op)))
  | 6 => .op (.ora (operandOfCode (opLow op)))
  | _ => .op (.cmp (operandOfCode (opLow op)))

/-- The bytes 0xC0 to 0xFF of R82; the condition codes are those of R75. -/
def opForm11 (op : Byte) : OpForm :=
  match opLow op with
  | 0 =>
    match opMid op with
    | 0 => .op .rnz
    | 1 => .op .rz
    | 2 => .op .rnc
    | 3 => .op .rc
    | 4 => .op .rpo
    | 5 => .op .rpe
    | 6 => .op .rp
    | _ => .op .rm
  | 1 =>
    if opOdd op then
      match opPair op with
      | 0 => .op .ret
      | 1 => .op (.undefined op)
      | 2 => .op .pchl
      | _ => .op .sphl
    else .op (.pop (stackPairOfCode (opPair op)))
  | 2 =>
    match opMid op with
    | 0 => .opD16 .jnz
    | 1 => .opD16 .jz
    | 2 => .opD16 .jnc
    | 3 => .opD16 .jc
    | 4 => .opD16 .jpo
    | 5 => .opD16 .jpe
    | 6 => .opD16 .jp
    | _ => .opD16 .jm
  | 3 =>
    match opMid op with
    | 0 => .opD16 .jmp
    | 1 => .op (.undefined op)
    | 2 => .opD8 .out
    | 3 => .opD8 .inp
    | 4 => .op .xthl
    | 5 => .op .xchg
    | 6 => .op .di
    | _ => .op .ei
  | 4 =>
    match opMid op with
    | 0 => .opD16 .cnz
    | 1 => .opD16 .cz
    | 2 => .opD16 .cnc
    | 3 => .opD16 .cc
    | 4 => .opD16 .cpo
    | 5 => .opD16 .cpe
    | 6 => .opD16 .cp
    | _ => .opD16 .cm
  | 5 =>
    if opOdd op then
      match opPair op with
      | 0 => .opD16 .call
      | _ => .op (.undefined op)
    else .op (.push (stackPairOfCode (opPair op)))
  | 6 =>
    match opMid op with
    | 0 => .opD8 .adi
    | 1 => .opD8 .aci
    | 2 => .opD8 .sui
    | 3 => .opD8 .sbi
    | 4 => .opD8 .ani
    | 5 => .opD8 .xri
    | 6 => .opD8 .ori
    | _ => .opD8 .cpi
  | _ => .op (.rst (Fin.ofNat 8 (opMid op)))

/-- R81, R82: every opcode byte to exactly one form. -/
def opForm (op : Byte) : OpForm :=
  match opTop op with
  | 0 => opForm00 op
  | 1 => opForm01 op
  | 2 => opForm10 op
  | _ => opForm11 op

/-- The instruction, once the two bytes that follow the opcode are given; a form uses as many of them as it has operand
bytes, the low byte first (R77, R78). -/
def OpForm.fill (b1 b2 : Byte) : OpForm → Instr
  | .op i => i
  | .opD8 mk => mk b1
  | .opD16 mk => mk (joinBytes b2 b1)

/-- How many bytes the form takes, the opcode byte among them. An undefined opcode counts as its own byte here: the bytes
after it are no part of it. -/
def OpForm.length : OpForm → Nat
  | .op _ => 1
  | .opD8 _ => 2
  | .opD16 _ => 3

/-- R70: the length of the instruction that an opcode byte begins; the twelve undefined opcodes have none. -/
def lengthOf (op : Byte) : Option Nat :=
  match opForm op with
  | .op (.undefined _) => none
  | f => some f.length

/-! ## The decoder -/

/-- Why a byte sequence begins no instruction: it is too short. (Every opcode byte has a form.) -/
inductive DecodeError where
  /-- The sequence is empty. -/
  | noOpcode
  /-- The opcode's operand bytes are not all there. -/
  | missingOperand (op : Byte)
deriving DecidableEq, Repr

/-- What the decoder answers: an instruction and the bytes after it, or a named rejection. -/
inductive Decoded where
  | instr (i : Instr) (rest : List Byte)
  | rejected (e : DecodeError)
deriving DecidableEq, Repr

/-- Decodes the first instruction of a byte sequence, total on every sequence (R81). -/
def decode : List Byte → Decoded
  | [] => .rejected .noOpcode
  | op :: rest =>
    match opForm op, rest with
    | .op i, rest => .instr i rest
    | .opD8 mk, b1 :: rest => .instr (mk b1) rest
    | .opD16 mk, b1 :: b2 :: rest => .instr (mk (joinBytes b2 b1)) rest
    | _, _ => .rejected (.missingOperand op)

/-- The longest instruction's bytes (three) of the word `w`, whose bits from `nbits` up count as zero. Byte k of the
instruction is bits 8k+7 to 8k. -/
def tableBytes (nbits w : Nat) : List Byte :=
  let v := w % 2 ^ nbits
  [BitVec.ofNat 8 v, BitVec.ofNat 8 (v / 256), BitVec.ofNat 8 (v / 65536)]

/-- The instruction the decoder reads from a table row's bits. -/
def decodeTableWord (nbits w : Nat) : Option Instr :=
  match decode (tableBytes nbits w) with
  | .instr i _ => some i
  | .rejected _ => none

/-! ## The encoder -/

/-- R72. -/
def Operand8.code : Operand8 → BitVec 3
  | .b => 0b000
  | .c => 0b001
  | .d => 0b010
  | .e => 0b011
  | .h => 0b100
  | .l => 0b101
  | .m => 0b110
  | .a => 0b111

/-- R73, first row. -/
def RegPair.code : RegPair → BitVec 2
  | .bc => 0b00
  | .de => 0b01
  | .hl => 0b10
  | .sp => 0b11

/-- R73, second row. -/
def StackPair.code : StackPair → BitVec 2
  | .bc => 0b00
  | .de => 0b01
  | .hl => 0b10
  | .psw => 0b11

/-- R73, third row: bit 4. -/
def IndexPair.code : IndexPair → BitVec 1
  | .bc => 0
  | .de => 1

/-- An opcode byte from its fields 7:6, 5:3 and 2:0 (R71). -/
def opcodeBits (top : BitVec 2) (mid low : BitVec 3) : Byte := top ++ mid ++ low

/-- An opcode byte from its fields 7:6, 5:4, 3 and 2:0 (R71, the `RP` formats). -/
def opcodePair (top rp : BitVec 2) (odd : BitVec 1) (low : BitVec 3) : Byte := top ++ rp ++ odd ++ low

/-- The first byte of an instruction, from the "Encoding" line of its rule. -/
def opcode : Instr → Byte
  | .nop => 0x00
  | .mvi dst _ => opcodeBits 0b00 dst.code 0b110
  | .lxi rp _ => opcodePair 0b00 rp.code 0 0b001
  | .mov dst src => opcodeBits 0b01 dst.code src.code
  | .inr dst => opcodeBits 0b00 dst.code 0b100
  | .dcr dst => opcodeBits 0b00 dst.code 0b101
  | .inx rp => opcodePair 0b00 rp.code 0 0b011
  | .dcx rp => opcodePair 0b00 rp.code 1 0b011
  | .dad rp => opcodePair 0b00 rp.code 1 0b001
  | .add src => opcodeBits 0b10 0b000 src.code
  | .adc src => opcodeBits 0b10 0b001 src.code
  | .sub src => opcodeBits 0b10 0b010 src.code
  | .sbb src => opcodeBits 0b10 0b011 src.code
  | .ana src => opcodeBits 0b10 0b100 src.code
  | .xra src => opcodeBits 0b10 0b101 src.code
  | .ora src => opcodeBits 0b10 0b110 src.code
  | .cmp src => opcodeBits 0b10 0b111 src.code
  | .adi _ => 0xC6
  | .aci _ => 0xCE
  | .sui _ => 0xD6
  | .sbi _ => 0xDE
  | .ani _ => 0xE6
  | .xri _ => 0xEE
  | .ori _ => 0xF6
  | .cpi _ => 0xFE
  | .sta _ => 0x32
  | .lda _ => 0x3A
  | .shld _ => 0x22
  | .lhld _ => 0x2A
  | .stax rp => opcodePair 0b00 (0#1 ++ rp.code) 0 0b010
  | .ldax rp => opcodePair 0b00 (0#1 ++ rp.code) 1 0b010
  | .push rp => opcodePair 0b11 rp.code 0 0b101
  | .pop rp => opcodePair 0b11 rp.code 0 0b001
  | .jmp _ => 0xC3
  | .call _ => 0xCD
  | .ret => 0xC9
  | .jnz _ => 0xC2
  | .jz _ => 0xCA
  | .jnc _ => 0xD2
  | .jc _ => 0xDA
  | .jpo _ => 0xE2
  | .jpe _ => 0xEA
  | .jp _ => 0xF2
  | .jm _ => 0xFA
  | .cnz _ => 0xC4
  | .cz _ => 0xCC
  | .cnc _ => 0xD4
  | .cc _ => 0xDC
  | .cpo _ => 0xE4
  | .cpe _ => 0xEC
  | .cp _ => 0xF4
  | .cm _ => 0xFC
  | .rnz => 0xC0
  | .rz => 0xC8
  | .rnc => 0xD0
  | .rc => 0xD8
  | .rpo => 0xE0
  | .rpe => 0xE8
  | .rp => 0xF0
  | .rm => 0xF8
  | .xchg => 0xEB
  | .rrc => 0x0F
  | .out _ => 0xD3
  | .inp _ => 0xDB
  | .ei => 0xFB
  | .di => 0xF3
  | .hlt => 0x76
  | .rlc => 0x07
  | .ral => 0x17
  | .rar => 0x1F
  | .daa => 0x27
  | .cma => 0x2F
  | .stc => 0x37
  | .cmc => 0x3F
  | .xthl => 0xE3
  | .pchl => 0xE9
  | .sphl => 0xF9
  | .rst n => opcodeBits 0b11 (BitVec.ofNat 3 n.val) 0b111
  | .undefined op => op

/-- A 16-bit operand as the two bytes that follow the opcode, low byte first (R78). -/
def operandBytes16 (v : Word) : List Byte := [loByte v, hiByte v]

/-- The operand bytes of an instruction (R71). -/
def operandBytes : Instr → List Byte
  | .mvi _ d8 | .adi d8 | .aci d8 | .sui d8 | .sbi d8 | .ani d8 | .xri d8 | .ori d8 | .cpi d8 => [d8]
  | .out port | .inp port => [port]
  | .lxi _ v | .sta v | .lda v | .shld v | .lhld v | .jmp v | .call v => operandBytes16 v
  | .jnz v | .jz v | .jnc v | .jc v | .jpo v | .jpe v | .jp v | .jm v => operandBytes16 v
  | .cnz v | .cz v | .cnc v | .cc v | .cpo v | .cpe v | .cp v | .cm v => operandBytes16 v
  | .nop | .mov _ _ | .inr _ | .dcr _ | .inx _ | .dcx _ | .dad _ => []
  | .add _ | .adc _ | .sub _ | .sbb _ | .ana _ | .xra _ | .ora _ | .cmp _ => []
  | .stax _ | .ldax _ | .push _ | .pop _ | .ret => []
  | .rnz | .rz | .rnc | .rc | .rpo | .rpe | .rp | .rm => []
  | .xchg | .rrc | .ei | .di | .hlt | .rlc | .ral | .rar | .daa | .cma | .stc | .cmc => []
  | .xthl | .pchl | .sphl | .rst _ | .undefined _ => []

/-- The bytes of an instruction at ascending addresses (R71). -/
def encode (i : Instr) : List Byte := opcode i :: operandBytes i

end Sys2Proof
end

