-- ==== Sys2Proof/Machine/Fetch.lean ====
section
/-! DEFINITION. Fetching (R52, R80): the opcode byte at PC and the bytes after it, modulo 65,536, given to the decoder. The
model reads the two bytes after the opcode whether or not the instruction has operands, and reads all of them before it
executes anything: a read has no side effect (R59), and every instruction fetches its bytes before it writes (R67). -/

namespace Sys2Proof.Machine

/-- The bytes an instruction at PC can have. -/
def State.codeBytes (s : State) : List Byte := [s.codeByte 0, s.codeByte 1, s.codeByte 2]

/-- The instruction at PC. -/
def State.fetch (s : State) : Instr := (opForm (s.codeByte 0)).fill (s.codeByte 1) (s.codeByte 2)

/-- A byte `k` places after PC, modulo 65,536. -/
def State.putCodeByte (s : State) (k : Nat) (v : Byte) : State := s.writeByte (s.pc + BitVec.ofNat 16 k) v

/-- The first three bytes of a list at PC (zero where the list is shorter), and the core able to fetch: neither halted nor
faulted. -/
def State.withCode (s : State) (bytes : List Byte) : State :=
  let s' := { s with halted := false, faultRecord := none }
  ((s'.putCodeByte 0 (bytes.getD 0 0)).putCodeByte 1 (bytes.getD 1 0)).putCodeByte 2 (bytes.getD 2 0)

end Sys2Proof.Machine
end

