-- ==== Sys2Proof/Machine/Load.lean ====
section
/-! DEFINITION. What the driver does before the first step (R276, R278): it creates the state, copies the image, sets PC and
SP. An image that would run past the top of memory is refused (R68, D26). -/

namespace Sys2Proof.Machine

/-- Copies bytes to ascending addresses from `base` (R68, R276). -/
def State.loadBytes (s : State) (base : Word) : List Byte → State
  | [] => s
  | v :: vs => (s.writeByte base v).loadBytes (base + 1) vs

/-- The loaded reset state of R278 for the given parameters. -/
def State.loaded (c : Config) : State := (State.created c.pcInit c.spInit).loadBytes c.loadBase c.image

/-- Creation and load, with the precondition of R68. -/
def boot (c : Config) : Host.Outcome State Fault Refusal :=
  if c.imageFits then .next (State.loaded c) else .refused .imageTooLong

end Sys2Proof.Machine
end

