-- ==== Sys2Proof/Machine/Step.lean ====
section
/-! DEFINITION. One step (R80), and the placing of a word where the next step fetches. -/

namespace Sys2Proof.Machine

/-- R80. A state with a fault record has no further step: it answers the fault (R257, U11). A halted core does nothing (R41).
Otherwise the instruction at PC is executed; its meaning moves PC, counts the step, or takes the exception. -/
def step (s : State) : Host.Outcome State Fault Refusal :=
  match s.faultRecord with
  | some r => .fault r.toFault
  | none => if s.halted then .next s else exec s.fetch s

/-- The word of `nbits` bits, its first byte at PC, so that the next step runs it (log entry 4). -/
def State.withFetchWord (s : State) (nbits w : Nat) : State := s.withCode (tableBytes nbits w)

end Sys2Proof.Machine
end

