-- ==== Sys2Proof/Safety.lean ====
section
/-! DEFINITION. The terms claims use: how a run ends (R281), what every step keeps, which bytes, registers and flags an
instruction may write (R52, R24, R37, R32), and how a result is described. -/

namespace Sys2Proof.Machine

/-! ## Runs (R281) -/

/-- A state that can execute an instruction: not halted, no fault record (R80, R287). -/
abbrev State.running (s : State) : Prop := s.faultRecord = none ∧ s.halted = false

/-- The proper final state of an explicit halt (R281 (a)). -/
abbrev State.properFinal (s : State) : Prop := s.halted = true ∧ s.faultRecord = none

/-- The terminal state of a fault (R257, R281 (b)). -/
abbrev State.faulted (s : State) : Prop := s.faultRecord ≠ none

/-- `n` steps from `s` lead to `t`, none of them stopping. -/
def State.reaches (s : State) : Nat → State → Prop
  | 0, t => s = t
  | n + 1, t => ∃ s', step s = .next s' ∧ s'.reaches n t

/-- A safe run of `n` steps: none stops, and none takes the exception. -/
def State.safeFor (s : State) (n : Nat) : Prop := ∃ t, s.reaches n t ∧ t.faultRecord = none

/-- The meanings of a list of instructions one after another, wherever they stand in memory. -/
def execAll : List Instr → State → Host.Outcome State Fault Refusal
  | [], s => .next s
  | i :: is, s =>
    match exec i s with
    | .next t => execAll is t
    | .fault f => .fault f
    | .refused r => .refused r

/-! ## The invariant -/

/-- A fault record tells the truth (R250 to R254): its opcode is one of the twelve and is the byte at its pc, its pc is PC,
its count is `steps`, and the core is not halted (R253). -/
def FaultRecord.accurate (r : FaultRecord) (s : State) : Prop :=
  r.opcode ∈ undefinedOpcodes ∧ s.readByte r.pc = r.opcode ∧ r.pc = s.pc ∧ r.steps = s.steps ∧ s.halted = false

/-- What every step keeps: memory is in its canonical form, and a fault record is accurate. -/
def State.inv (s : State) : Prop :=
  s.mem.wf = true ∧ ∀ r, s.faultRecord = some r → r.accurate s

/-! ## Frames -/

/-- From `s` to `t` one step is counted, every register but those listed and every byte but those at the listed addresses keeps
its value, and INTE, the halt latch and the fault record keep theirs. (Flags, PC and SP are said beside it.) -/
def State.keeps (s t : State) (regs : List Operand8) (stores : List Word) : Prop :=
  (∀ r, r ≠ .m → r ∉ regs → t.readOperand r = s.readOperand r) ∧
  (∀ a, a ∉ stores → t.readByte a = s.readByte a) ∧
  t.inte = s.inte ∧ t.halted = s.halted ∧ t.faultRecord = s.faultRecord ∧ t.steps = s.steps + 1

/-! ## Descriptions of results -/

/-- Z, S and P describe a result (R27, R28, R29): zero, bit 7, an even number of 1 bits. -/
def Flags.describe (f : Flags) (r : Byte) : Prop :=
  (f.z = true ↔ r.toNat = 0) ∧ (f.s = true ↔ 128 ≤ r.toNat) ∧
  (f.p = true ↔ (List.range 8).countP (fun k => r.getLsbD k) % 2 = 0)

/-- `t` has in A the sum A + v + c of `s`, modulo 256, and the flags of that sum (R14, R30, R31). -/
def State.addsTo (s t : State) (v : Byte) (c : Bool) : Prop :=
  t.regs.a.toNat = (s.regs.a.toNat + v.toNat + c.toNat) % 256 ∧
  (t.flags.cy = true ↔ 255 < s.regs.a.toNat + v.toNat + c.toNat) ∧
  (t.flags.ac = true ↔ 15 < s.regs.a.toNat % 16 + v.toNat % 16 + c.toNat) ∧
  t.flags.describe t.regs.a

/-- The flags of the difference a - v - c with result `r`: CY is the borrow (R30), AC no borrow out of the low nibble (R15). -/
def Flags.ofDifference (f : Flags) (a v : Byte) (c : Bool) (r : Byte) : Prop :=
  (r.toNat + v.toNat + c.toNat) % 256 = a.toNat ∧
  (f.cy = true ↔ a.toNat < v.toNat + c.toNat) ∧
  (f.ac = true ↔ v.toNat % 16 + c.toNat ≤ a.toNat % 16) ∧
  f.describe r

/-- Every bit of `r` is `op` of the bits of `a` and `v`. -/
def bitwise (op : Bool → Bool → Bool) (a v r : Byte) : Prop :=
  ∀ k, k < 8 → r.getLsbD k = op (a.getLsbD k) (v.getLsbD k)

/-- `t` has in A the bitwise result, the flags that describe it, and CY and AC clear (R32). -/
def State.combinesTo (op : Bool → Bool → Bool) (s t : State) (v : Byte) : Prop :=
  bitwise op s.regs.a v t.regs.a ∧ t.flags.describe t.regs.a ∧ t.flags.cy = false ∧ t.flags.ac = false

/-- From `s` to `t` the word `v` is pushed (R65): its high byte at SP - 1, its low byte at SP - 2, SP less 2. -/
def State.pushesTo (s t : State) (v : Word) : Prop :=
  (t.readByte (s.sp - 1)).toNat = v.toNat / 256 ∧ (t.readByte (s.sp - 2)).toNat = v.toNat % 256 ∧ t.sp = s.sp - 2

/-- The word on top of the stack (R66): the low byte at SP, the high byte at SP + 1. -/
def State.topIs (s : State) (v : Word) : Prop :=
  v.toNat = (s.readByte (s.sp + 1)).toNat * 256 + (s.readByte s.sp).toNat

/-- A packed decimal byte (R234): both digits are 0 to 9. -/
def isDecimal (v : Byte) : Prop := v.toNat % 16 ≤ 9 ∧ v.toNat / 16 ≤ 9

/-- The number a packed decimal byte stands for. -/
def decimalValue (v : Byte) : Nat := v.toNat / 16 * 10 + v.toNat % 16

/-! ## Stores: the addresses of a push -/

/-- The two addresses of a push (R65). -/
def State.pushAddrs (s : State) : List Word := [s.sp - 1, s.sp - 2]

/-- The addresses a conditional call stores to: those of a push when it is taken. -/
def State.callAddrs (s : State) (cond : Cond) : List Word := if s.flags.cond cond then s.pushAddrs else []

end Sys2Proof.Machine

namespace Sys2Proof

open Sys2Proof.Machine (State)

/-- The address a write to a byte operand stores to. -/
def Operand8.storeAddrs (dst : Operand8) (s : State) : List Word :=
  match dst with
  | .m => [s.hl]
  | .b | .c | .d | .e | .h | .l | .a => []

/-- The registers of a pair (R22): high, then low; SP is none. -/
def RegPair.halves : RegPair → List Operand8
  | .bc => [.b, .c]
  | .de => [.d, .e]
  | .hl => [.h, .l]
  | .sp => []

/-- The registers a POP writes (R181, R183). -/
def StackPair.halves : StackPair → List Operand8
  | .bc => [.b, .c]
  | .de => [.d, .e]
  | .hl => [.h, .l]
  | .psw => [.a]

/-- The addresses an instruction stores to in a state: R52, by the expressions of the instruction's own rule. -/
def Instr.storeAddrs (i : Instr) (s : State) : List Word :=
  match i with
  | .mvi dst _ | .mov dst _ | .inr dst | .dcr dst => dst.storeAddrs s
  | .sta a16 => [a16]
  | .shld a16 => [a16, a16 + 1]
  | .stax pair => [s.indexAddr pair]
  | .push _ | .call _ | .rst _ => s.pushAddrs
  | .xthl => [s.sp, s.sp + 1]
  | .cnz _ => s.callAddrs .nz
  | .cz _ => s.callAddrs .z
  | .cnc _ => s.callAddrs .nc
  | .cc _ => s.callAddrs .c
  | .cpo _ => s.callAddrs .po
  | .cpe _ => s.callAddrs .pe
  | .cp _ => s.callAddrs .p
  | .cm _ => s.callAddrs .m
  | .nop | .lxi _ _ | .inx _ | .dcx _ | .dad _ => []
  | .add _ | .adc _ | .sub _ | .sbb _ | .ana _ | .xra _ | .ora _ | .cmp _ => []
  | .adi _ | .aci _ | .sui _ | .sbi _ | .ani _ | .xri _ | .ori _ | .cpi _ => []
  | .lda _ | .lhld _ | .ldax _ | .pop _ | .jmp _ | .ret => []
  | .jnz _ | .jz _ | .jnc _ | .jc _ | .jpo _ | .jpe _ | .jp _ | .jm _ => []
  | .rnz | .rz | .rnc | .rc | .rpo | .rpe | .rp | .rm => []
  | .xchg | .rrc | .out _ | .inp _ | .ei | .di => []
  | .hlt | .rlc | .ral | .rar | .daa | .cma | .stc | .cmc => []
  | .pchl | .sphl | .undefined _ => []

/-- The registers an instruction may write: R24. -/
def Instr.writtenRegs : Instr → List Operand8
  | .mvi dst _ | .mov dst _ | .inr dst | .dcr dst => [dst]
  | .lxi pair _ | .inx pair | .dcx pair => pair.halves
  | .pop pair => pair.halves
  | .dad _ | .lhld _ | .xthl => [.h, .l]
  | .xchg => [.h, .l, .d, .e]
  | .add _ | .adc _ | .sub _ | .sbb _ | .ana _ | .xra _ | .ora _ => [.a]
  | .adi _ | .aci _ | .sui _ | .sbi _ | .ani _ | .xri _ | .ori _ => [.a]
  | .lda _ | .ldax _ | .rrc | .rlc | .ral | .rar | .daa | .cma => [.a]
  | .nop | .cmp _ | .cpi _ | .sta _ | .shld _ | .stax _ | .push _ => []
  | .jmp _ | .call _ | .ret => []
  | .jnz _ | .jz _ | .jnc _ | .jc _ | .jpo _ | .jpe _ | .jp _ | .jm _ => []
  | .cnz _ | .cz _ | .cnc _ | .cc _ | .cpo _ | .cpe _ | .cp _ | .cm _ => []
  | .rnz | .rz | .rnc | .rc | .rpo | .rpe | .rp | .rm => []
  | .out _ | .inp _ | .ei | .di | .hlt | .stc | .cmc => []
  | .pchl | .sphl | .rst _ | .undefined _ => []

/-- The instruction writes Z, S, P and AC (columns Z, S, P, AC of R32, which have the same rows). -/
def Instr.writesZspAc : Instr → Bool
  | .add _ | .adc _ | .sub _ | .sbb _ | .ana _ | .xra _ | .ora _ | .cmp _ => true
  | .adi _ | .aci _ | .sui _ | .sbi _ | .ani _ | .xri _ | .ori _ | .cpi _ => true
  | .inr _ | .dcr _ | .daa => true
  | .pop pair => decide (pair = .psw)
  | .dad _ | .rrc | .rlc | .ral | .rar | .stc | .cmc => false
  | .nop | .mvi _ _ | .lxi _ _ | .mov _ _ | .inx _ | .dcx _ => false
  | .sta _ | .lda _ | .shld _ | .lhld _ | .stax _ | .ldax _ | .push _ => false
  | .jmp _ | .call _ | .ret => false
  | .jnz _ | .jz _ | .jnc _ | .jc _ | .jpo _ | .jpe _ | .jp _ | .jm _ => false
  | .cnz _ | .cz _ | .cnc _ | .cc _ | .cpo _ | .cpe _ | .cp _ | .cm _ => false
  | .rnz | .rz | .rnc | .rc | .rpo | .rpe | .rp | .rm => false
  | .xchg | .out _ | .inp _ | .ei | .di | .hlt | .cma | .xthl => false
  | .pchl | .sphl | .rst _ | .undefined _ => false

/-- The instruction writes CY (column CY of R32): those that write the other flags, but INR and DCR, and DAD, the rotates, STC
and CMC. -/
def Instr.writesCy (i : Instr) : Bool :=
  match i with
  | .inr _ | .dcr _ => false
  | .dad _ | .rrc | .rlc | .ral | .rar | .stc | .cmc => true
  | i => i.writesZspAc

/-- The instruction writes SP in this state: R37. -/
def Instr.writesSp (i : Instr) (s : State) : Bool :=
  match i with
  | .push _ | .call _ | .rst _ | .pop _ | .ret | .sphl => true
  | .lxi pair _ | .inx pair | .dcx pair => decide (pair = .sp)
  | .cnz _ | .rnz => s.flags.cond .nz
  | .cz _ | .rz => s.flags.cond .z
  | .cnc _ | .rnc => s.flags.cond .nc
  | .cc _ | .rc => s.flags.cond .c
  | .cpo _ | .rpo => s.flags.cond .po
  | .cpe _ | .rpe => s.flags.cond .pe
  | .cp _ | .rp => s.flags.cond .p
  | .cm _ | .rm => s.flags.cond .m
  | .nop | .mvi _ _ | .mov _ _ | .inr _ | .dcr _ | .dad _ => false
  | .add _ | .adc _ | .sub _ | .sbb _ | .ana _ | .xra _ | .ora _ | .cmp _ => false
  | .adi _ | .aci _ | .sui _ | .sbi _ | .ani _ | .xri _ | .ori _ | .cpi _ => false
  | .sta _ | .lda _ | .shld _ | .lhld _ | .stax _ | .ldax _ | .jmp _ => false
  | .jnz _ | .jz _ | .jnc _ | .jc _ | .jpo _ | .jpe _ | .jp _ | .jm _ => false
  | .xchg | .rrc | .out _ | .inp _ | .ei | .di => false
  | .hlt | .rlc | .ral | .rar | .daa | .cma | .stc | .cmc => false
  | .xthl | .pchl | .undefined _ => false

/-- The instruction replaces PC in this state: R34. -/
def Instr.transfers (i : Instr) (s : State) : Bool :=
  match i with
  | .jmp _ | .call _ | .ret | .pchl | .rst _ => true
  | .jnz _ | .cnz _ | .rnz => s.flags.cond .nz
  | .jz _ | .cz _ | .rz => s.flags.cond .z
  | .jnc _ | .cnc _ | .rnc => s.flags.cond .nc
  | .jc _ | .cc _ | .rc => s.flags.cond .c
  | .jpo _ | .cpo _ | .rpo => s.flags.cond .po
  | .jpe _ | .cpe _ | .rpe => s.flags.cond .pe
  | .jp _ | .cp _ | .rp => s.flags.cond .p
  | .jm _ | .cm _ | .rm => s.flags.cond .m
  | .nop | .mvi _ _ | .lxi _ _ | .mov _ _ | .inr _ | .dcr _ | .inx _ | .dcx _ | .dad _ => false
  | .add _ | .adc _ | .sub _ | .sbb _ | .ana _ | .xra _ | .ora _ | .cmp _ => false
  | .adi _ | .aci _ | .sui _ | .sbi _ | .ani _ | .xri _ | .ori _ | .cpi _ => false
  | .sta _ | .lda _ | .shld _ | .lhld _ | .stax _ | .ldax _ | .push _ | .pop _ => false
  | .xchg | .rrc | .out _ | .inp _ | .ei | .di => false
  | .hlt | .rlc | .ral | .rar | .daa | .cma | .stc | .cmc => false
  | .xthl | .sphl | .undefined _ => false

end Sys2Proof

namespace Sys2Proof.Machine

/-! ## Completion -/

/-- A conditional jump in all it does: it completes, PC is the target when the flag holds and past the three bytes when not, and
nothing else changes. -/
def State.jumpsWhen (s : State) (i : Instr) (a16 : Word) (taken : Prop) : Prop :=
  ∃ t, exec i s = .next t ∧ (taken → t.pc = a16) ∧ (¬ taken → t.pc = s.pc + 3) ∧
    t.sp = s.sp ∧ t.flags = s.flags ∧ s.keeps t [] []

/-- A conditional call in all it does. -/
def State.callsWhen (s : State) (i : Instr) (a16 : Word) (taken : Prop) : Prop :=
  ∃ t, exec i s = .next t ∧ (taken → t.pc = a16 ∧ s.pushesTo t (s.pc + 3)) ∧
    (¬ taken → t.pc = s.pc + 3 ∧ t.sp = s.sp) ∧
    t.flags = s.flags ∧ s.keeps t [] (i.storeAddrs s)

/-- A conditional return in all it does. -/
def State.returnsWhen (s : State) (i : Instr) (taken : Prop) : Prop :=
  ∃ t, exec i s = .next t ∧ (taken → s.topIs t.pc ∧ t.sp = s.sp + 2) ∧
    (¬ taken → t.pc = s.pc + 1 ∧ t.sp = s.sp) ∧
    t.flags = s.flags ∧ s.keeps t [] []

end Sys2Proof.Machine
end

