-- ==== Sys2Proof/Certificates/Slice0/Obligations.lean ====
section
/-! DEFINITION. The statements for the provers. Where a statement rests on a value or behaviour that the spec marks as its own
decision or as general knowledge, its docstring says so and names it. Every statement that counts a step rests on D13 for that
clause (`State.keeps`); every byte written out rests on the opcode map G1 (log entry 7). -/

open Sys2Proof Sys2Proof.Machine

/-! ## Encoding -/

/-- Decoding an encoded instruction, with any bytes after it, gives it back with every operand (R71, R78; map: G1). -/
def Obligations.DecodeOfEncodeIsTheInstruction : Prop :=
  ∀ (i : Instr) (rest : List Byte), i.wf = true → decode (encode i ++ rest) = .instr i rest

/-- Whatever the decoder reads is well formed, and its encoding is the bytes it was read from: no byte has two meanings (R81). -/
def Obligations.EncodeOfDecodeIsTheBytes : Prop :=
  ∀ (bytes : List Byte) (i : Instr) (rest : List Byte),
    decode bytes = .instr i rest → i.wf = true ∧ encode i ++ rest = bytes

/-- The four anchors the source itself confirms (R87). -/
def Obligations.AnchorBytesDecodeAsTheSourceSays : Prop :=
  decode [0x3E, 0x05] = .instr (.mvi .a 0x05) [] ∧
  decode [0x3C] = .instr (.inr .a) [] ∧
  decode [0xC3, 0x00, 0x00] = .instr (.jmp 0x0000) [] ∧
  decode [0xDD] = .instr (.undefined 0xDD) []

/-- The lengths of R70: how many bytes the decoder takes depends on the opcode byte alone; it needs all of them and no more. -/
def Obligations.OpcodeByteAloneFixesTheLength : Prop :=
  ∀ (op : Byte),
    let two : List Byte := [0x06, 0x0E, 0x16, 0x1E, 0x26, 0x2E, 0x36, 0x3E, 0xC6, 0xCE, 0xD6, 0xDE, 0xE6, 0xEE, 0xF6, 0xFE,
      0xD3, 0xDB]
    let three : List Byte := [0x01, 0x11, 0x21, 0x31, 0x22, 0x2A, 0x32, 0x3A, 0xC3, 0xCD, 0xC2, 0xCA, 0xD2, 0xDA, 0xE2, 0xEA,
      0xF2, 0xFA, 0xC4, 0xCC, 0xD4, 0xDC, 0xE4, 0xEC, 0xF4, 0xFC]
    let n := if op ∈ three then 3 else if op ∈ two then 2 else 1
    lengthOf op = (if op ∈ undefinedOpcodes then none else some n) ∧
    (∀ b1 b2, ∃ i, decode [op, b1, b2] = .instr i ([op, b1, b2].drop n)) ∧
    (1 < n → decode [op] = .rejected (.missingOperand op)) ∧
    (2 < n → ∀ b1, decode [op, b1] = .rejected (.missingOperand op))

/-! ## The step -/

/-- A running core's step is the meaning of the instruction at PC, and there always is one (R80, R81). The step adds nothing
around the meaning: PC and the step count are moved by the meaning itself. -/
def Obligations.StepRunsTheDecodedInstruction : Prop :=
  ∀ s : State, s.running →
    (∃ i rest, decode s.codeBytes = .instr i rest ∧ i.wf = true) ∧
    ∀ i rest, decode s.codeBytes = .instr i rest → step s = exec i s

/-- When memory from PC on holds an instruction's bytes (taken modulo 65,536, R35), the step is that instruction's meaning, even
if the instruction then overwrites those bytes (R64, R67). -/
def Obligations.StepRunsTheEncodedInstruction : Prop :=
  ∀ (s : State) (i : Instr), s.running → i.wf = true →
    (∀ k v, (encode i)[k]? = some v → s.readByte (s.pc + BitVec.ofNat 16 k) = v) → step s = exec i s

/-- Every increment of PC is modulo 65,536: past the bytes of an instruction that transfers no control, and from byte to byte of
one (R35). No fault arises from the wrap. -/
def Obligations.PcAdvancesAndWraps : Prop :=
  (∀ (i : Instr) (s : State), i.transfers s = false → (∀ op, i ≠ .undefined op) →
    ∃ t, exec i s = .next t ∧ t.pc.toNat = (s.pc.toNat + (encode i).length) % 65536 ∧ t.faultRecord = s.faultRecord ∧
      (s.pc = 0xFFFF → (encode i).length = 1 → t.pc = 0x0000)) ∧
  (∀ s : State,
    (s.pc = 0xFFFF → s.codeBytes = [s.readByte 0xFFFF, s.readByte 0x0000, s.readByte 0x0001]) ∧
    (s.pc = 0xFFFE → s.codeBytes = [s.readByte 0xFFFE, s.readByte 0xFFFF, s.readByte 0x0000]) ∧
    ∀ k, k < 3 → s.codeBytes[k]? = some (s.readByte (BitVec.ofNat 16 ((s.pc.toNat + k) % 65536))))

/-- A halted core's step changes nothing, and its status is halt (R41, R80; the latch is D14). -/
def Obligations.HaltedStepChangesNothing : Prop :=
  ∀ s : State, s.properFinal → step s = .next s ∧ s.status = .halts ∧ ∀ n t, s.reaches n t → t = s

/-- A state with a fault record has no further step; the model's total step answers the fault with the record's three values
(R257; U11; log entry 5). -/
def Obligations.FaultedStateHasNoFurtherStep : Prop :=
  ∀ (s : State) (r : FaultRecord), s.faultRecord = some r →
    step s = .fault (.unimplementedOpcode r.opcode r.pc r.steps) ∧ s.status = .faults r ∧
    ∀ n t, s.reaches n t → n = 0 ∧ t = s

/-- Every defined instruction succeeds in every state, with every operand: it completes and raises no exception of any kind
(R251). -/
def Obligations.EveryDefinedInstructionSucceeds : Prop :=
  ∀ (i : Instr) (s : State), (∀ op, i ≠ .undefined op) →
    ∃ t, exec i s = .next t ∧ t.faultRecord = s.faultRecord

/-- Fetching one of the twelve bytes takes the exception: the fault record is written with the byte, its address and the count,
and nothing else changes (R250, R254; the unchanged PC is D12, the count D13, the twelve D2). The model's choice: that this step,
and so the meaning of `undefined`, answers a next state (log entry 5; in R11 and D20 the fault is an outcome of its own). The first
clause holds for every byte; that `exec` is defined on a byte outside the twelve, which no step runs, is the model's too (log
entry 13). -/
def Obligations.UndefinedOpcodeTakesTheException : Prop :=
  ∀ s : State,
    (∀ op, ∃ t, exec (.undefined op) s = .next t ∧
      t = { s with faultRecord := some { opcode := op, pc := s.pc, steps := s.steps } }) ∧
    (s.running → s.readByte s.pc ∈ undefinedOpcodes →
      ∃ t, step s = .next t ∧
        t = { s with faultRecord := some { opcode := s.readByte s.pc, pc := s.pc, steps := s.steps } } ∧
        t.status = .faults { opcode := s.readByte s.pc, pc := s.pc, steps := s.steps })

/-- A running core's step leaves a fault record exactly when the byte at PC is one of the twelve (R250; the set is D2): such a byte
as an operand or as data raises nothing. The model's choice: that the step answers a next state at those twelve bytes too (log
entry 5; in R11 and D20 that step's outcome is the fault). At every other byte it answers one by R251. -/
def Obligations.OnlyAnUndefinedOpcodeFaults : Prop :=
  ∀ s : State, s.running → ∃ t, step s = .next t ∧
    (t.faultRecord ≠ none ↔
      s.readByte s.pc ∈ [0x08, 0x10, 0x18, 0x20, 0x28, 0x30, 0x38, 0xCB, 0xD9, 0xDD, 0xED, 0xFD])

/-! ## The invariant, reset and load -/

/-- Every step keeps the invariant: memory stays in its canonical form (the model's, log entry 14), and a fault record is accurate
(R250, R252, R253, R254; D12, D13). The state that holds a new record is the one the faulting step answers (log entry 5). -/
def Obligations.StepKeepsTheInvariant : Prop :=
  ∀ s t : State, s.inv → step s = .next t → t.inv

/-- The state after reset meets the invariant, runs, and is the loaded state of the parameters behind it (log entries 1, 2, 3). -/
def Obligations.ResetMeetsTheInvariant : Prop :=
  State.reset.inv ∧ State.reset.running ∧ boot Config.ofReset = .next State.reset

/-- The loaded reset state, for every setting of the four open parameters (R275, R276, R278; INTE, steps, halted and the fault
record are D10 and D14): registers and flags zero, PC and SP as given, memory the image at its base and zero elsewhere. An image
that does not fit is refused (R68, D26). -/
def Obligations.BootLoadsTheImageIntoZeroedState : Prop :=
  ∀ c : Config,
    (c.image.length ≤ 65536 - c.loadBase.toNat → ∃ s, boot c = .next s ∧ s.inv ∧ s.running ∧
      (∀ r, r ≠ .m → s.readOperand r = 0) ∧
      s.flags = { z := false, s := false, p := false, cy := false, ac := false } ∧
      s.inte = false ∧ s.steps = 0 ∧ s.pc = c.pcInit ∧ s.sp = c.spInit ∧
      ∀ a : Word, s.readByte a =
        if c.loadBase.toNat ≤ a.toNat then (c.image[a.toNat - c.loadBase.toNat]?).getD 0x00 else 0x00) ∧
    (65536 - c.loadBase.toNat < c.image.length → boot c = .refused .imageTooLong)

/-! ## Rules about the whole machine -/

/-- Every byte an instruction does not store to, by the address table R52, reads as before. -/
def Obligations.BytesChangeOnlyWhereAnInstructionStores : Prop :=
  ∀ (i : Instr) (s t : State) (a : Word), exec i s = .next t → a ∉ i.storeAddrs s → t.readByte a = s.readByte a

/-- Every register an instruction is not listed for in R24 keeps its value. -/
def Obligations.RegistersChangeOnlyWhereListed : Prop :=
  ∀ (i : Instr) (s t : State) (r : Operand8), exec i s = .next t → r ≠ .m → r ∉ i.writtenRegs →
    t.readOperand r = s.readOperand r

/-- Every flag an instruction does not write, by the flag policy R32, keeps its value (the AC column is D3; the rows RLC, RAL, RAR,
DAA, STC, CMC are G17). -/
def Obligations.FlagsChangeOnlyWhereThePolicySays : Prop :=
  ∀ (i : Instr) (s t : State), exec i s = .next t →
    (i.writesZspAc = false → t.flags.z = s.flags.z ∧ t.flags.s = s.flags.s ∧ t.flags.p = s.flags.p ∧ t.flags.ac = s.flags.ac) ∧
    (i.writesCy = false → t.flags.cy = s.flags.cy)

/-- SP changes only by the instructions of R37 (pair code 3, SPHL and RST are D17). -/
def Obligations.SpChangesOnlyWhereListed : Prop :=
  ∀ (i : Instr) (s t : State), exec i s = .next t → i.writesSp s = false → t.sp = s.sp

/-- INTE changes by EI and DI alone (R38, R255), the halt latch is set by HLT and never cleared (R41; D14), and a completed step
is counted once (R40; D13). -/
def Obligations.ControlStateChangesOnlyByItsInstructions : Prop :=
  ∀ (i : Instr) (s t : State), exec i s = .next t →
    (i ≠ .ei → i ≠ .di → t.inte = s.inte) ∧
    (t.halted = true ↔ s.halted = true ∨ i = .hlt) ∧
    ((∀ op, i ≠ .undefined op) → t.steps = s.steps + 1)

/-- No instruction reads INTE or the step counter: with other values there, an instruction does the same (R38, R40, R255). -/
def Obligations.NothingReadsInteOrSteps : Prop :=
  ∀ (i : Instr) (s t : State) (v : Bool) (n : Nat), exec i s = .next t → i ≠ .ei → i ≠ .di → (∀ op, i ≠ .undefined op) →
    exec i { s with inte := v, steps := n } = .next { t with inte := v, steps := n + 1 }

/-- A run ends in no way but those of R281: from any state without a fault record that meets the invariant, any number of steps can be
taken, every state reached meeting it, unless an earlier step took the exception; the record is then accurate (D12, D13). The
model's choice: that the step which takes the exception reaches a state, the one that holds the record (log entry 5). -/
def Obligations.RunsEndOnlyInAFault : Prop :=
  ∀ (s : State) (n : Nat), s.faultRecord = none → s.inv →
    ((∃ t, s.reaches n t ∧ t.inv) ∨
      ∃ k t r, k < n ∧ s.reaches k t ∧ t.faultRecord = some r ∧ r.accurate t)

/-! ## Views and shared operations -/

/-- A write to a register changes that register and no other; reset makes each 0 (R20). -/
def Obligations.RegistersAreIndependentAndWrap : Prop :=
  (∀ (s : State) (r r' : Operand8) (v : Byte), r ≠ .m → r' ≠ .m →
    (s.writeOperand r v).readOperand r' = if r' = r then v else s.readOperand r') ∧
  (∀ (s : State) (r : Operand8), r ≠ .m → (s.readOperand r).toNat ≤ 255 ∧
    (∃ t, exec (.inr r) s = .next t ∧ (t.readOperand r).toNat = ((s.readOperand r).toNat + 1) % 256) ∧
    (∃ t, exec (.dcr r) s = .next t ∧ (t.readOperand r).toNat = ((s.readOperand r).toNat + 255) % 256)) ∧
  (∀ (pc sp : Word) (r : Operand8), r ≠ .m → (State.created pc sp).readOperand r = 0)

/-- A pair is a view of its two registers, the first-named the high byte: reading it, writing it (LXI), its increment, the addresses
made of it, its value at reset (R22). That each pair is 0x0000 at reset is marked in R22 as derived from R20. -/
def Obligations.PairsAreViewsOfTheirRegisters : Prop :=
  (∀ s : State,
    ((s.readPair .bc).toNat = s.regs.b.toNat * 256 + s.regs.c.toNat) ∧
    ((s.readPair .de).toNat = s.regs.d.toNat * 256 + s.regs.e.toNat) ∧
    ((s.readPair .hl).toNat = s.regs.h.toNat * 256 + s.regs.l.toNat) ∧
    s.hl = s.readPair .hl ∧ s.indexAddr .bc = s.readPair .bc ∧ s.indexAddr .de = s.readPair .de) ∧
  (∀ (s : State) (v : Word),
    (∃ t, exec (.lxi .bc v) s = .next t ∧ t.regs.b.toNat = v.toNat / 256 ∧ t.regs.c.toNat = v.toNat % 256) ∧
    (∃ t, exec (.lxi .de v) s = .next t ∧ t.regs.d.toNat = v.toNat / 256 ∧ t.regs.e.toNat = v.toNat % 256) ∧
    (∃ t, exec (.lxi .hl v) s = .next t ∧ t.regs.h.toNat = v.toNat / 256 ∧ t.regs.l.toNat = v.toNat % 256)) ∧
  (∀ s : State,
    (∃ t, exec (.inx .bc) s = .next t ∧ t.regs.c = s.regs.c + 1 ∧
      t.regs.b = if t.regs.c = 0 then s.regs.b + 1 else s.regs.b) ∧
    (∃ t, exec (.inx .de) s = .next t ∧ t.regs.e = s.regs.e + 1 ∧
      t.regs.d = if t.regs.e = 0 then s.regs.d + 1 else s.regs.d) ∧
    (∃ t, exec (.inx .hl) s = .next t ∧ t.regs.l = s.regs.l + 1 ∧
      t.regs.h = if t.regs.l = 0 then s.regs.h + 1 else s.regs.h)) ∧
  (∀ (pc sp : Word) (rp : RegPair), rp ≠ .sp → (State.created pc sp).readPair rp = 0x0000)

/-- `add8` of R14. That the carry-in takes part in both carries is marked in R14 as derived, from the source's definition applied to
the three-term sum of ADC. -/
def Obligations.AdderGivesSumAndBothCarries : Prop :=
  ∀ (a b : Byte) (c : Bool),
    (add8 a b c).r.toNat = (a.toNat + b.toNat + c.toNat) % 256 ∧
    ((add8 a b c).cy = true ↔ 255 < a.toNat + b.toNat + c.toNat) ∧
    ((add8 a b c).ac = true ↔ 15 < a.toNat % 16 + b.toNat % 16 + c.toNat)

/-- `parity8` and `set_zsp` of R13. -/
def Obligations.ZspDescribeTheEightBitResult : Prop :=
  ∀ (f : Flags) (v : Byte),
    (parity8 v = true ↔ (List.range 8).countP (fun k => v.getLsbD k) ∈ [0, 2, 4, 6, 8]) ∧
    (f.setZsp v).describe v ∧ (f.setZsp v).cy = f.cy ∧ (f.setZsp v).ac = f.ac

/-- `push16(v)` of R65, for every SP. -/
def Obligations.PushWritesHighThenLowBelowSp : Prop :=
  ∀ (s : State) (v : Word),
    s.pushesTo (s.push16 v) v ∧
    ((s.push16 v).readByte (s.push16 v).sp).toNat = v.toNat % 256 ∧
    (s.push16 v).readByte s.sp = s.readByte s.sp ∧
    (∀ a, a ≠ s.sp - 1 → a ≠ s.sp - 2 → (s.push16 v).readByte a = s.readByte a) ∧
    s.push16 v = { s with sp := (s.push16 v).sp, mem := (s.push16 v).mem }

/-- `pop16()` of R66, and its round trip with `push16` for every SP. The round trip for SP 0 and 1 too is marked in R66 as derived
from R65 and R56. -/
def Obligations.PopReadsLowThenHighAtSp : Prop :=
  ∀ (s : State) (v : Word),
    s.topIs s.popValue ∧ s.popped = { s with sp := s.sp + 2 } ∧
    (s.push16 v).popValue = v ∧ (s.push16 v).popped.sp = s.sp

/-! ## 40_nop_load_move.md -/

/-- NOP, OUT and IN move PC past themselves and do nothing else (R100, R225, R226; IN as a stub is the source's, D9). -/
def Obligations.NopOutInOnlyMovePc : Prop :=
  ∀ (s : State) (port : Byte),
    exec .nop s = .next { s with pc := s.pc + 1, steps := s.steps + 1 } ∧
    exec (.out port) s = .next { s with pc := s.pc + 2, steps := s.steps + 1 } ∧
    exec (.inp port) s = .next { s with pc := s.pc + 2, steps := s.steps + 1 }

/-- MVI puts its immediate in the register or the byte at HL, and nothing else changes (R101, R102). -/
def Obligations.MviWritesItsOperand : Prop :=
  ∀ (dst : Operand8) (d8 : Byte) (s : State), ∃ t, exec (.mvi dst d8) s = .next t ∧
    t.readOperand dst = d8 ∧ t.pc = s.pc + 2 ∧ t.sp = s.sp ∧ t.flags = s.flags ∧
    s.keeps t [dst] (dst.storeAddrs s)

/-- LXI puts its immediate in the pair or SP (R103; SP is D17). -/
def Obligations.LxiWritesItsPair : Prop :=
  ∀ (rp : RegPair) (d16 : Word) (s : State), ∃ t, exec (.lxi rp d16) s = .next t ∧
    t.readPair rp = d16 ∧ t.pc = s.pc + 3 ∧ (rp ≠ .sp → t.sp = s.sp) ∧ t.flags = s.flags ∧
    s.keeps t rp.halves []

/-- MOV copies its source, read before the destination is written, in every form the encoding has (R104, R105, R106). -/
def Obligations.MovCopiesItsSource : Prop :=
  ∀ (dst src : Operand8) (s : State), (Instr.mov dst src).wf = true → ∃ t, exec (.mov dst src) s = .next t ∧
    t.readOperand dst = s.readOperand src ∧ t.pc = s.pc + 1 ∧ t.sp = s.sp ∧ t.flags = s.flags ∧
    s.keeps t [dst] (dst.storeAddrs s)

/-! ## 41_incdec_dad.md -/

/-- INR adds 1 and DCR subtracts 1 modulo 256; both describe the result and keep CY (R120 to R123; AC is D3). -/
def Obligations.InrDcrStepByOneAndKeepCarry : Prop :=
  ∀ (dst : Operand8) (s : State),
    (∃ t, exec (.inr dst) s = .next t ∧
      (t.readOperand dst).toNat = ((s.readOperand dst).toNat + 1) % 256 ∧
      t.flags.describe (t.readOperand dst) ∧ t.flags.cy = s.flags.cy ∧
      (t.flags.ac = true ↔ (s.readOperand dst).toNat % 16 = 15) ∧
      t.pc = s.pc + 1 ∧ t.sp = s.sp ∧ s.keeps t [dst] (dst.storeAddrs s)) ∧
    (∃ t, exec (.dcr dst) s = .next t ∧
      ((t.readOperand dst).toNat + 1) % 256 = (s.readOperand dst).toNat ∧
      t.flags.describe (t.readOperand dst) ∧ t.flags.cy = s.flags.cy ∧
      (t.flags.ac = true ↔ (s.readOperand dst).toNat % 16 ≠ 0) ∧
      t.pc = s.pc + 1 ∧ t.sp = s.sp ∧ s.keeps t [dst] (dst.storeAddrs s))

/-- INX and DCX step the pair modulo 65,536 and write no flag (R124, R125; SP is D17). -/
def Obligations.InxDcxStepThePairAndNoFlag : Prop :=
  ∀ (rp : RegPair) (s : State),
    (∃ t, exec (.inx rp) s = .next t ∧ (t.readPair rp).toNat = ((s.readPair rp).toNat + 1) % 65536 ∧
      t.pc = s.pc + 1 ∧ (rp ≠ .sp → t.sp = s.sp) ∧ t.flags = s.flags ∧ s.keeps t rp.halves []) ∧
    (∃ t, exec (.dcx rp) s = .next t ∧ (t.readPair rp).toNat = ((s.readPair rp).toNat + 65535) % 65536 ∧
      t.pc = s.pc + 1 ∧ (rp ≠ .sp → t.sp = s.sp) ∧ t.flags = s.flags ∧ s.keeps t rp.halves [])

/-- DAD adds the pair to HL modulo 65,536, writes CY alone, and leaves the source unless it is HL (R126; SP is D17). -/
def Obligations.DadAddsToHlAndWritesCarryAlone : Prop :=
  ∀ (rp : RegPair) (s : State), ∃ t, exec (.dad rp) s = .next t ∧
    t.hl.toNat = (s.hl.toNat + (s.readPair rp).toNat) % 65536 ∧
    (t.flags.cy = true ↔ 65535 < s.hl.toNat + (s.readPair rp).toNat) ∧
    t.flags.z = s.flags.z ∧ t.flags.s = s.flags.s ∧ t.flags.p = s.flags.p ∧ t.flags.ac = s.flags.ac ∧
    t.pc = s.pc + 1 ∧ t.sp = s.sp ∧ s.keeps t [.h, .l] []

/-! ## 42_accumulator_alu.md -/

/-- ADD, ADC, ADI, ACI: the sum, with the carry in for ADC and ACI, in A, and all five flags from it (R140, R141, R148, R149; AC is
D3). -/
def Obligations.AddFamilyAddsIntoA : Prop :=
  ∀ s : State,
    (∀ src, ∃ t, exec (.add src) s = .next t ∧ s.addsTo t (s.readOperand src) false ∧
      t.pc = s.pc + 1 ∧ t.sp = s.sp ∧ s.keeps t [.a] []) ∧
    (∀ src, ∃ t, exec (.adc src) s = .next t ∧ s.addsTo t (s.readOperand src) s.flags.cy ∧
      t.pc = s.pc + 1 ∧ t.sp = s.sp ∧ s.keeps t [.a] []) ∧
    (∀ d8, ∃ t, exec (.adi d8) s = .next t ∧ s.addsTo t d8 false ∧
      t.pc = s.pc + 2 ∧ t.sp = s.sp ∧ s.keeps t [.a] []) ∧
    (∀ d8, ∃ t, exec (.aci d8) s = .next t ∧ s.addsTo t d8 s.flags.cy ∧
      t.pc = s.pc + 2 ∧ t.sp = s.sp ∧ s.keeps t [.a] [])

/-- SUB, SBB, SUI, SBI: the difference, with the borrow in for SBB and SBI, in A, and all five flags from it (R142, R143, R150,
R151; AC is D3). -/
def Obligations.SubFamilySubtractsFromA : Prop :=
  ∀ s : State,
    (∀ src, ∃ t, exec (.sub src) s = .next t ∧ t.flags.ofDifference s.regs.a (s.readOperand src) false t.regs.a ∧
      t.pc = s.pc + 1 ∧ t.sp = s.sp ∧ s.keeps t [.a] []) ∧
    (∀ src, ∃ t, exec (.sbb src) s = .next t ∧ t.flags.ofDifference s.regs.a (s.readOperand src) s.flags.cy t.regs.a ∧
      t.pc = s.pc + 1 ∧ t.sp = s.sp ∧ s.keeps t [.a] []) ∧
    (∀ d8, ∃ t, exec (.sui d8) s = .next t ∧ t.flags.ofDifference s.regs.a d8 false t.regs.a ∧
      t.pc = s.pc + 2 ∧ t.sp = s.sp ∧ s.keeps t [.a] []) ∧
    (∀ d8, ∃ t, exec (.sbi d8) s = .next t ∧ t.flags.ofDifference s.regs.a d8 s.flags.cy t.regs.a ∧
      t.pc = s.pc + 2 ∧ t.sp = s.sp ∧ s.keeps t [.a] [])

/-- ANA, XRA, ORA, ANI, XRI, ORI: bit by bit into A, flags described by the result, CY and AC clear (R144 to R146, R152 to R154). -/
def Obligations.LogicFamilyCombinesIntoAAndClearsCarries : Prop :=
  ∀ s : State,
    (∀ src, ∃ t, exec (.ana src) s = .next t ∧ State.combinesTo and s t (s.readOperand src) ∧
      t.pc = s.pc + 1 ∧ t.sp = s.sp ∧ s.keeps t [.a] []) ∧
    (∀ src, ∃ t, exec (.xra src) s = .next t ∧ State.combinesTo xor s t (s.readOperand src) ∧
      t.pc = s.pc + 1 ∧ t.sp = s.sp ∧ s.keeps t [.a] []) ∧
    (∀ src, ∃ t, exec (.ora src) s = .next t ∧ State.combinesTo or s t (s.readOperand src) ∧
      t.pc = s.pc + 1 ∧ t.sp = s.sp ∧ s.keeps t [.a] []) ∧
    (∀ d8, ∃ t, exec (.ani d8) s = .next t ∧ State.combinesTo and s t d8 ∧
      t.pc = s.pc + 2 ∧ t.sp = s.sp ∧ s.keeps t [.a] []) ∧
    (∀ d8, ∃ t, exec (.xri d8) s = .next t ∧ State.combinesTo xor s t d8 ∧
      t.pc = s.pc + 2 ∧ t.sp = s.sp ∧ s.keeps t [.a] []) ∧
    (∀ d8, ∃ t, exec (.ori d8) s = .next t ∧ State.combinesTo or s t d8 ∧
      t.pc = s.pc + 2 ∧ t.sp = s.sp ∧ s.keeps t [.a] [])

/-- CMP and CPI: the flags of A - v, Z iff equal, CY iff A is below, and no register changes (R147, R155; AC is D3, the polarity of
CY D5). -/
def Obligations.CompareWritesFlagsAlone : Prop :=
  ∀ s : State,
    (∀ src, ∃ t, exec (.cmp src) s = .next t ∧
      (∃ r, t.flags.ofDifference s.regs.a (s.readOperand src) false r) ∧
      (t.flags.z = true ↔ s.regs.a = s.readOperand src) ∧
      (t.flags.cy = true ↔ s.regs.a.toNat < (s.readOperand src).toNat) ∧
      t.pc = s.pc + 1 ∧ t.sp = s.sp ∧ s.keeps t [] []) ∧
    (∀ d8, ∃ t, exec (.cpi d8) s = .next t ∧
      (∃ r, t.flags.ofDifference s.regs.a d8 false r) ∧
      (t.flags.z = true ↔ s.regs.a = d8) ∧
      (t.flags.cy = true ↔ s.regs.a.toNat < d8.toNat) ∧
      t.pc = s.pc + 2 ∧ t.sp = s.sp ∧ s.keeps t [] [])

/-! ## 43_memory_direct_indirect.md -/

/-- STA and STAX store A at their address and nowhere else (R170, R174). -/
def Obligations.StaStaxStoreA : Prop :=
  ∀ s : State,
    (∀ a16, ∃ t, exec (.sta a16) s = .next t ∧ t.readByte a16 = s.regs.a ∧
      t.pc = s.pc + 3 ∧ t.sp = s.sp ∧ t.flags = s.flags ∧ s.keeps t [] [a16]) ∧
    (∀ rp, ∃ t, exec (.stax rp) s = .next t ∧ t.readByte (s.indexAddr rp) = s.regs.a ∧
      t.pc = s.pc + 1 ∧ t.sp = s.sp ∧ t.flags = s.flags ∧ s.keeps t [] [s.indexAddr rp])

/-- LDA and LDAX load A from their address; no flag, no memory changes (R171, R175). -/
def Obligations.LdaLdaxLoadA : Prop :=
  ∀ s : State,
    (∀ a16, ∃ t, exec (.lda a16) s = .next t ∧ t.regs.a = s.readByte a16 ∧
      t.pc = s.pc + 3 ∧ t.sp = s.sp ∧ t.flags = s.flags ∧ s.keeps t [.a] []) ∧
    (∀ rp, ∃ t, exec (.ldax rp) s = .next t ∧ t.regs.a = s.readByte (s.indexAddr rp) ∧
      t.pc = s.pc + 1 ∧ t.sp = s.sp ∧ t.flags = s.flags ∧ s.keeps t [.a] [])

/-- SHLD stores L, then H at the next address modulo 65,536, and LHLD loads them from there (R172, R173; the placement is D15). -/
def Obligations.ShldLhldMoveHlLowByteFirst : Prop :=
  ∀ (s : State) (a16 : Word),
    (∃ t, exec (.shld a16) s = .next t ∧ t.readByte a16 = s.regs.l ∧ t.readByte (a16 + 1) = s.regs.h ∧
      t.pc = s.pc + 3 ∧ t.sp = s.sp ∧ t.flags = s.flags ∧ s.keeps t [] [a16, a16 + 1]) ∧
    (∃ t, exec (.lhld a16) s = .next t ∧ t.regs.l = s.readByte a16 ∧ t.regs.h = s.readByte (a16 + 1) ∧
      t.pc = s.pc + 3 ∧ t.sp = s.sp ∧ t.flags = s.flags ∧ s.keeps t [.h, .l] [])

/-! ## 44_stack.md -/

/-- PUSH stores the pair, or A and the flag byte, below SP (R180, R182; the layout of the flag byte and the place of A are D6, D7). -/
def Obligations.PushStoresThePair : Prop :=
  ∀ (rp : StackPair) (s : State), ∃ t, exec (.push rp) s = .next t ∧
    (rp = .bc → t.readByte (s.sp - 1) = s.regs.b ∧ t.readByte (s.sp - 2) = s.regs.c) ∧
    (rp = .de → t.readByte (s.sp - 1) = s.regs.d ∧ t.readByte (s.sp - 2) = s.regs.e) ∧
    (rp = .hl → t.readByte (s.sp - 1) = s.regs.h ∧ t.readByte (s.sp - 2) = s.regs.l) ∧
    (rp = .psw → t.readByte (s.sp - 1) = s.regs.a ∧
      (t.readByte (s.sp - 2)).toNat = 0x02 + s.flags.s.toNat * 0x80 + s.flags.z.toNat * 0x40 + s.flags.ac.toNat * 0x10 +
        s.flags.p.toNat * 0x04 + s.flags.cy.toNat) ∧
    t.sp = s.sp - 2 ∧ t.pc = s.pc + 1 ∧ t.flags = s.flags ∧ s.keeps t [] s.pushAddrs

/-- POP loads the pair, or A and all five flags, from SP (R181, R183; the layout is D6, D7). -/
def Obligations.PopLoadsThePair : Prop :=
  ∀ (rp : StackPair) (s : State), ∃ t, exec (.pop rp) s = .next t ∧
    (rp = .bc → t.regs.c = s.readByte s.sp ∧ t.regs.b = s.readByte (s.sp + 1)) ∧
    (rp = .de → t.regs.e = s.readByte s.sp ∧ t.regs.d = s.readByte (s.sp + 1)) ∧
    (rp = .hl → t.regs.l = s.readByte s.sp ∧ t.regs.h = s.readByte (s.sp + 1)) ∧
    (rp = .psw → t.regs.a = s.readByte (s.sp + 1) ∧
      t.flags.s = (s.readByte s.sp).getLsbD 7 ∧ t.flags.z = (s.readByte s.sp).getLsbD 6 ∧
      t.flags.ac = (s.readByte s.sp).getLsbD 4 ∧ t.flags.p = (s.readByte s.sp).getLsbD 2 ∧
      t.flags.cy = (s.readByte s.sp).getLsbD 0) ∧
    (rp ≠ .psw → t.flags = s.flags) ∧
    t.sp = s.sp + 2 ∧ t.pc = s.pc + 1 ∧ s.keeps t rp.halves []

/-- PUSH then POP of the same operand restores the registers, the flags and SP, for every SP (R181, R183, R66). -/
def Obligations.PushThenPopRestores : Prop :=
  ∀ (rp : StackPair) (s : State), ∃ t, execAll [.push rp, .pop rp] s = .next t ∧
    t.regs = s.regs ∧ t.flags = s.flags ∧ t.sp = s.sp

/-! ## 45_control_flow.md, PCHL, RST -/

/-- JMP, PCHL and RET replace PC: by the operand, by HL, by the word on top of the stack, which RET drops (R190, R239, R192; PCHL is
G2). Nothing else changes. -/
def Obligations.JmpPchlRetReplacePc : Prop :=
  ∀ (s : State) (a16 : Word),
    (∃ t, exec (.jmp a16) s = .next t ∧ t.pc = a16 ∧ t.sp = s.sp ∧ t.flags = s.flags ∧ s.keeps t [] []) ∧
    (∃ t, exec .pchl s = .next t ∧ t.pc.toNat = s.regs.h.toNat * 256 + s.regs.l.toNat ∧
      t.sp = s.sp ∧ t.flags = s.flags ∧ s.keeps t [] []) ∧
    (∃ t, exec .ret s = .next t ∧ s.topIs t.pc ∧ t.sp = s.sp + 2 ∧ t.flags = s.flags ∧ s.keeps t [] [])

/-- CALL and RST push the address past themselves and go to their target (R191, R241; RST is G8). -/
def Obligations.CallRstPushTheReturnAddress : Prop :=
  ∀ s : State,
    (∀ a16, ∃ t, exec (.call a16) s = .next t ∧ t.pc = a16 ∧ s.pushesTo t (s.pc + 3) ∧
      t.flags = s.flags ∧ s.keeps t [] s.pushAddrs) ∧
    (∀ n, ∃ t, exec (.rst n) s = .next t ∧ t.pc.toNat = 8 * n.val ∧ s.pushesTo t (s.pc + 1) ∧
      t.flags = s.flags ∧ s.keeps t [] s.pushAddrs)

/-- The eight conditional jumps, each on its flag (R193 to R200; R75). -/
def Obligations.ConditionalJumpsTestTheirFlag : Prop :=
  ∀ (s : State) (a16 : Word),
    s.jumpsWhen (.jnz a16) a16 (s.flags.z = false) ∧ s.jumpsWhen (.jz a16) a16 (s.flags.z = true) ∧
    s.jumpsWhen (.jnc a16) a16 (s.flags.cy = false) ∧ s.jumpsWhen (.jc a16) a16 (s.flags.cy = true) ∧
    s.jumpsWhen (.jpo a16) a16 (s.flags.p = false) ∧ s.jumpsWhen (.jpe a16) a16 (s.flags.p = true) ∧
    s.jumpsWhen (.jp a16) a16 (s.flags.s = false) ∧ s.jumpsWhen (.jm a16) a16 (s.flags.s = true)

/-- The eight conditional calls (R201 to R208; R75). -/
def Obligations.ConditionalCallsTestTheirFlag : Prop :=
  ∀ (s : State) (a16 : Word),
    s.callsWhen (.cnz a16) a16 (s.flags.z = false) ∧ s.callsWhen (.cz a16) a16 (s.flags.z = true) ∧
    s.callsWhen (.cnc a16) a16 (s.flags.cy = false) ∧ s.callsWhen (.cc a16) a16 (s.flags.cy = true) ∧
    s.callsWhen (.cpo a16) a16 (s.flags.p = false) ∧ s.callsWhen (.cpe a16) a16 (s.flags.p = true) ∧
    s.callsWhen (.cp a16) a16 (s.flags.s = false) ∧ s.callsWhen (.cm a16) a16 (s.flags.s = true)

/-- The eight conditional returns (R209 to R216; R75). -/
def Obligations.ConditionalReturnsTestTheirFlag : Prop :=
  ∀ s : State,
    s.returnsWhen .rnz (s.flags.z = false) ∧ s.returnsWhen .rz (s.flags.z = true) ∧
    s.returnsWhen .rnc (s.flags.cy = false) ∧ s.returnsWhen .rc (s.flags.cy = true) ∧
    s.returnsWhen .rpo (s.flags.p = false) ∧ s.returnsWhen .rpe (s.flags.p = true) ∧
    s.returnsWhen .rp (s.flags.s = false) ∧ s.returnsWhen .rm (s.flags.s = true)

/-- CALL, or RST, and then RET comes back to the instruction after it with SP as before, for every SP (R191, R241). -/
def Obligations.CallThenRetComesBack : Prop :=
  ∀ s : State,
    (∀ a16, ∃ t, execAll [.call a16, .ret] s = .next t ∧ t.pc = s.pc + 3 ∧ t.sp = s.sp ∧ t.regs = s.regs) ∧
    (∀ n, ∃ t, execAll [.rst n, .ret] s = .next t ∧ t.pc = s.pc + 1 ∧ t.sp = s.sp ∧ t.regs = s.regs)

/-! ## 46_exchange_rotate.md and the rotates of 48_unnamed_in_source.md -/

/-- XCHG exchanges HL and DE (R220). -/
def Obligations.XchgSwapsHlAndDe : Prop :=
  ∀ s : State, ∃ t, exec .xchg s = .next t ∧
    t.regs.h = s.regs.d ∧ t.regs.l = s.regs.e ∧ t.regs.d = s.regs.h ∧ t.regs.e = s.regs.l ∧
    t.pc = s.pc + 1 ∧ t.sp = s.sp ∧ t.flags = s.flags ∧ s.keeps t [.h, .l, .d, .e] []

/-- The four rotates, bit by bit, CY alone written (R221; R231 to R233 are G2). -/
def Obligations.RotatesMoveBitsAndWriteCarryAlone : Prop :=
  ∀ s : State,
    (∃ t, exec .rrc s = .next t ∧ (∀ k, k < 7 → t.regs.a.getLsbD k = s.regs.a.getLsbD (k + 1)) ∧
      t.regs.a.getLsbD 7 = s.regs.a.getLsbD 0 ∧ t.flags = { s.flags with cy := s.regs.a.getLsbD 0 } ∧
      t.pc = s.pc + 1 ∧ t.sp = s.sp ∧ s.keeps t [.a] []) ∧
    (∃ t, exec .rlc s = .next t ∧ (∀ k, k < 7 → t.regs.a.getLsbD (k + 1) = s.regs.a.getLsbD k) ∧
      t.regs.a.getLsbD 0 = s.regs.a.getLsbD 7 ∧ t.flags = { s.flags with cy := s.regs.a.getLsbD 7 } ∧
      t.pc = s.pc + 1 ∧ t.sp = s.sp ∧ s.keeps t [.a] []) ∧
    (∃ t, exec .rar s = .next t ∧ (∀ k, k < 7 → t.regs.a.getLsbD k = s.regs.a.getLsbD (k + 1)) ∧
      t.regs.a.getLsbD 7 = s.flags.cy ∧ t.flags = { s.flags with cy := s.regs.a.getLsbD 0 } ∧
      t.pc = s.pc + 1 ∧ t.sp = s.sp ∧ s.keeps t [.a] []) ∧
    (∃ t, exec .ral s = .next t ∧ (∀ k, k < 7 → t.regs.a.getLsbD (k + 1) = s.regs.a.getLsbD k) ∧
      t.regs.a.getLsbD 0 = s.flags.cy ∧ t.flags = { s.flags with cy := s.regs.a.getLsbD 7 } ∧
      t.pc = s.pc + 1 ∧ t.sp = s.sp ∧ s.keeps t [.a] [])

/-! ## 47_io_interrupt_control.md and the rest of 48_unnamed_in_source.md -/

/-- EI sets INTE and DI clears it, at once (R227, R228; D8); HLT sets the halt latch, past itself (R230; D14); SPHL loads SP
(R240). Nothing else changes. -/
def Obligations.EiDiHltSphlWriteTheirBit : Prop :=
  ∀ s : State,
    exec .ei s = .next { s with inte := true, pc := s.pc + 1, steps := s.steps + 1 } ∧
    exec .di s = .next { s with inte := false, pc := s.pc + 1, steps := s.steps + 1 } ∧
    exec .hlt s = .next { s with halted := true, pc := s.pc + 1, steps := s.steps + 1 } ∧
    exec .sphl s = .next { s with sp := s.readPair .hl, pc := s.pc + 1, steps := s.steps + 1 }

/-- CMA complements every bit of A and writes no flag; STC sets CY, CMC complements it, and neither writes anything else (R235, R236,
R237; G2, G17). -/
def Obligations.CmaStcCmcComplementAndSet : Prop :=
  ∀ s : State,
    (∃ t, exec .cma s = .next t ∧ (∀ k, k < 8 → t.regs.a.getLsbD k = !s.regs.a.getLsbD k) ∧ t.flags = s.flags ∧
      t.pc = s.pc + 1 ∧ t.sp = s.sp ∧ s.keeps t [.a] []) ∧
    (∃ t, exec .stc s = .next t ∧ t.flags = { s.flags with cy := true } ∧
      t.pc = s.pc + 1 ∧ t.sp = s.sp ∧ s.keeps t [] []) ∧
    (∃ t, exec .cmc s = .next t ∧ t.flags = { s.flags with cy := !s.flags.cy } ∧
      t.pc = s.pc + 1 ∧ t.sp = s.sp ∧ s.keeps t [] [])

/-- XTHL exchanges L with the byte at SP and H with the byte at SP + 1; SP keeps its value (R238; G7). -/
def Obligations.XthlSwapsHlWithTheStackTop : Prop :=
  ∀ s : State, ∃ t, exec .xthl s = .next t ∧
    t.regs.l = s.readByte s.sp ∧ t.regs.h = s.readByte (s.sp + 1) ∧
    t.readByte s.sp = s.regs.l ∧ t.readByte (s.sp + 1) = s.regs.h ∧
    t.pc = s.pc + 1 ∧ t.sp = s.sp ∧ t.flags = s.flags ∧ s.keeps t [.h, .l] [s.sp, s.sp + 1]

/-- DAA in exact integers (R234; the algorithm is D21). -/
def Obligations.DaaAppliesBothCorrections : Prop :=
  ∀ s : State,
    let lo := s.regs.a.toNat % 16
    let hi := s.regs.a.toNat / 16
    let low := 9 < lo ∨ s.flags.ac = true
    let high := 9 < hi ∨ s.flags.cy = true ∨ (9 ≤ hi ∧ 9 < lo)
    ∃ t corr, exec .daa s = .next t ∧
      (low ∧ high → corr = 0x66) ∧ (low ∧ ¬ high → corr = 0x06) ∧ (¬ low ∧ high → corr = 0x60) ∧ (¬ low ∧ ¬ high → corr = 0x00) ∧
      t.regs.a.toNat = (s.regs.a.toNat + corr) % 256 ∧
      (t.flags.cy = true ↔ high) ∧ (t.flags.ac = true ↔ 15 < lo + corr % 16) ∧ t.flags.describe t.regs.a ∧
      t.pc = s.pc + 1 ∧ t.sp = s.sp ∧ s.keeps t [.a] []

/-- DAA after ADI or ACI of two packed decimal numbers leaves the packed decimal sum in A and its hundred in CY: decimal addition
is right (R234, "corrects A to two packed decimal digits after an addition of two packed decimal numbers"; D21, G11; ADI and ACI
are R148 and R149, and the AC that DAA reads is theirs by D3). -/
def Obligations.DaaAfterAddGivesTheDecimalSum : Prop :=
  ∀ (s : State) (d8 : Byte), isDecimal s.regs.a → isDecimal d8 →
    (∃ t, execAll [.adi d8, .daa] s = .next t ∧ isDecimal t.regs.a ∧
      decimalValue t.regs.a = (decimalValue s.regs.a + decimalValue d8) % 100 ∧
      (t.flags.cy = true ↔ 100 ≤ decimalValue s.regs.a + decimalValue d8)) ∧
    (∃ t, execAll [.aci d8, .daa] s = .next t ∧ isDecimal t.regs.a ∧
      decimalValue t.regs.a = (decimalValue s.regs.a + decimalValue d8 + s.flags.cy.toNat) % 100 ∧
      (t.flags.cy = true ↔ 100 ≤ decimalValue s.regs.a + decimalValue d8 + s.flags.cy.toNat))
end

