-- ==== Sys2Proof/Laws/Memory.lean ====
section
/-! SUPPORT. The laws of memory: a read after a write, the canonical form kept by every operation, and equal reads mean equal
lists. -/

namespace Sys2Proof.Machine

/-! ## Reads -/

theorem Memory.erase_cons (b : Nat) (w : Byte) (m : Memory) (a : Nat) :
    Memory.erase ((b, w) :: m) a = if b = a then m.erase a else (b, w) :: m.erase a := by
  by_cases h : b = a <;> simp [Memory.erase, h]

theorem Memory.read_erase_same (m : Memory) (a : Nat) : (m.erase a).read a = unlistedByte := by
  induction m with
  | nil => rfl
  | cons cell m ih =>
    obtain ⟨b, w⟩ := cell
    by_cases h : b = a
    · simpa [Memory.erase_cons, h] using ih
    · have hab : ¬ a = b := fun e => h e.symm
      simpa [Memory.erase_cons, Memory.read, h, hab] using ih

theorem Memory.read_erase_other (m : Memory) {a b : Nat} (hb : b ≠ a) : (m.erase a).read b = m.read b := by
  induction m with
  | nil => rfl
  | cons cell m ih =>
    obtain ⟨c, w⟩ := cell
    by_cases h : c = a
    · simp [Memory.erase_cons, Memory.read, h, hb, ih]
    · simp [Memory.erase_cons, Memory.read, h, ih]

theorem Memory.read_insert_same {m : Memory} {a : Nat} (v : Byte) (hm : ∀ cell ∈ m, cell.1 ≠ a) :
    (m.insert a v).read a = v := by
  induction m with
  | nil => simp [Memory.insert, Memory.read]
  | cons cell m ih =>
    obtain ⟨b, w⟩ := cell
    have hb : ¬ a = b := fun e => hm _ (List.mem_cons_self ..) e.symm
    by_cases h : a < b
    · simp [Memory.insert, Memory.read, h]
    · simpa [Memory.insert, Memory.read, h, hb] using ih fun x hx => hm x (List.mem_cons_of_mem _ hx)

theorem Memory.read_insert_other (m : Memory) {a b : Nat} (v : Byte) (hb : b ≠ a) :
    (m.insert a v).read b = m.read b := by
  induction m with
  | nil => simp [Memory.insert, Memory.read, hb]
  | cons cell m ih =>
    obtain ⟨c, w⟩ := cell
    by_cases h : a < c
    · simp [Memory.insert, Memory.read, h, hb]
    · by_cases hc : b = c <;> simp [Memory.insert, Memory.read, h, hc, ih]

theorem Memory.not_mem_erase (m : Memory) (a : Nat) : ∀ cell ∈ m.erase a, cell.1 ≠ a := by
  intro cell h
  simpa [Memory.erase] using (List.mem_filter.mp h).2

@[simp] theorem Memory.read_write_same (m : Memory) (a : Nat) (v : Byte) : (m.write a v).read a = v := by
  by_cases h : v = unlistedByte
  · simp [Memory.write, h, Memory.read_erase_same]
  · simp [Memory.write, h, Memory.read_insert_same v (m.not_mem_erase a)]

theorem Memory.read_write_other (m : Memory) {a b : Nat} (v : Byte) (hb : b ≠ a) :
    (m.write a v).read b = m.read b := by
  by_cases h : v = unlistedByte
  · simp [Memory.write, h, Memory.read_erase_other m hb]
  · simp [Memory.write, h, Memory.read_insert_other _ v hb, Memory.read_erase_other m hb]

/-- A read after a write, in one equation. -/
theorem Memory.read_write (m : Memory) (a b : Nat) (v : Byte) :
    (m.write a v).read b = if b = a then v else m.read b := by
  by_cases h : b = a
  · simp [h]
  · simp [h, Memory.read_write_other m v h]

/-! ## The canonical form -/

theorem Memory.wfFrom_cons {lo a : Nat} {v : Byte} {m : Memory} :
    Memory.wfFrom lo ((a, v) :: m) = true ↔ lo ≤ a ∧ a < memSize ∧ v ≠ unlistedByte ∧ Memory.wfFrom (a + 1) m = true := by
  simp [Memory.wfFrom, and_assoc]

theorem Memory.wfFrom_mono {lo lo' : Nat} (h : lo' ≤ lo) {m : Memory} (hm : Memory.wfFrom lo m = true) :
    Memory.wfFrom lo' m = true := by
  cases m with
  | nil => rfl
  | cons cell m =>
    obtain ⟨a, v⟩ := cell
    rw [Memory.wfFrom_cons] at hm ⊢
    exact ⟨Nat.le_trans h hm.1, hm.2⟩

theorem Memory.wfFrom_erase (a : Nat) {m : Memory} {lo : Nat} (hm : Memory.wfFrom lo m = true) :
    Memory.wfFrom lo (m.erase a) = true := by
  induction m generalizing lo with
  | nil => rfl
  | cons cell m ih =>
    obtain ⟨b, w⟩ := cell
    rw [Memory.wfFrom_cons] at hm
    have hrest := ih hm.2.2.2
    rw [Memory.erase_cons]
    split
    · exact Memory.wfFrom_mono (by omega) hrest
    · exact Memory.wfFrom_cons.mpr ⟨hm.1, hm.2.1, hm.2.2.1, hrest⟩

theorem Memory.wfFrom_insert {a : Nat} {v : Byte} (ha : a < memSize) (hv : v ≠ unlistedByte) {m : Memory} {lo : Nat}
    (hlo : lo ≤ a) (hne : ∀ cell ∈ m, cell.1 ≠ a) (hm : Memory.wfFrom lo m = true) :
    Memory.wfFrom lo (m.insert a v) = true := by
  induction m generalizing lo with
  | nil => exact Memory.wfFrom_cons.mpr ⟨hlo, ha, hv, rfl⟩
  | cons cell m ih =>
    obtain ⟨b, w⟩ := cell
    have hba : b ≠ a := hne _ (List.mem_cons_self ..)
    rw [Memory.wfFrom_cons] at hm
    by_cases h : a < b
    · simp only [Memory.insert, h, if_true]
      exact Memory.wfFrom_cons.mpr ⟨hlo, ha, hv, Memory.wfFrom_cons.mpr ⟨h, hm.2⟩⟩
    · simp only [Memory.insert, h, if_false]
      exact Memory.wfFrom_cons.mpr ⟨hm.1, hm.2.1, hm.2.2.1,
        ih (by omega) (fun x hx => hne x (List.mem_cons_of_mem _ hx)) hm.2.2.2⟩

/-- Every write keeps the canonical form. -/
theorem Memory.wf_write {m : Memory} (hm : m.wf = true) {a : Nat} (ha : a < memSize) (v : Byte) :
    (m.write a v).wf = true := by
  have he := Memory.wfFrom_erase a (lo := 0) hm
  simp only [Memory.write, Memory.wf]
  split
  · exact he
  · exact Memory.wfFrom_insert ha ‹_› (Nat.zero_le a) (m.not_mem_erase a) he

/-- Below the first possible address, memory reads as unlisted. -/
theorem Memory.read_of_lt {m : Memory} {lo a : Nat} (hm : Memory.wfFrom lo m = true) (ha : a < lo) :
    m.read a = unlistedByte := by
  induction m generalizing lo with
  | nil => rfl
  | cons cell m ih =>
    obtain ⟨b, w⟩ := cell
    rw [Memory.wfFrom_cons] at hm
    have : ¬ a = b := by omega
    simpa [Memory.read, this] using ih hm.2.2.2 (by omega)

/-- Two memories in canonical form that read alike everywhere are the same list. -/
theorem Memory.eq_of_reads {m m' : Memory} {lo : Nat} (hm : Memory.wfFrom lo m = true) (hm' : Memory.wfFrom lo m' = true)
    (h : ∀ a, m.read a = m'.read a) : m = m' := by
  induction m generalizing lo m' with
  | nil =>
    cases m' with
    | nil => rfl
    | cons cell m' =>
      obtain ⟨b, w⟩ := cell
      have hb := h b
      simp only [Memory.read, if_true] at hb
      exact absurd hb.symm (Memory.wfFrom_cons.mp hm').2.2.1
  | cons cell m ih =>
    obtain ⟨a, v⟩ := cell
    have ha := Memory.wfFrom_cons.mp hm
    cases m' with
    | nil =>
      have hb := h a
      simp only [Memory.read, if_true] at hb
      exact absurd hb ha.2.2.1
    | cons cell' m' =>
      obtain ⟨b, w⟩ := cell'
      have hb := Memory.wfFrom_cons.mp hm'
      have hra := h a
      have hrb := h b
      simp only [Memory.read, if_true] at hra hrb
      rcases Nat.lt_trichotomy a b with hlt | heq | hgt
      · have hne : ¬ a = b := by omega
        rw [if_neg hne, Memory.read_of_lt hb.2.2.2 (by omega)] at hra
        exact absurd hra ha.2.2.1
      · subst heq
        rw [if_pos rfl] at hra
        subst hra
        have hrest : m = m' := ih ha.2.2.2 hb.2.2.2 fun c => by
          by_cases hc : c = a
          · rw [hc, Memory.read_of_lt ha.2.2.2 (by omega), Memory.read_of_lt hb.2.2.2 (by omega)]
          · have := h c
            simpa only [Memory.read, if_neg hc] using this
        rw [hrest]
      · have hne : ¬ b = a := by omega
        rw [if_neg hne, Memory.read_of_lt ha.2.2.2 (by omega)] at hrb
        exact absurd hrb.symm hb.2.2.1

end Sys2Proof.Machine
end

