-- ==== Sys2Proof/Laws/State.lean ====
section
/-! SUPPORT. What each update of the state does to each field: one lemma per field per update, so that no proof unfolds a record
update. -/

namespace Sys2Proof.Machine

/-! ## advance -/

@[simp] theorem State.advance_regs (s : State) (n : Nat) : (s.advance n).regs = s.regs := rfl
@[simp] theorem State.advance_flags (s : State) (n : Nat) : (s.advance n).flags = s.flags := rfl
@[simp] theorem State.advance_pc (s : State) (n : Nat) : (s.advance n).pc = s.pc + BitVec.ofNat 16 n := rfl
@[simp] theorem State.advance_sp (s : State) (n : Nat) : (s.advance n).sp = s.sp := rfl
@[simp] theorem State.advance_inte (s : State) (n : Nat) : (s.advance n).inte = s.inte := rfl
@[simp] theorem State.advance_mem (s : State) (n : Nat) : (s.advance n).mem = s.mem := rfl
@[simp] theorem State.advance_steps (s : State) (n : Nat) : (s.advance n).steps = s.steps := rfl
@[simp] theorem State.advance_halted (s : State) (n : Nat) : (s.advance n).halted = s.halted := rfl
@[simp] theorem State.advance_faultRecord (s : State) (n : Nat) : (s.advance n).faultRecord = s.faultRecord := rfl

/-! ## jump -/

@[simp] theorem State.jump_regs (s : State) (target : Word) : (s.jump target).regs = s.regs := rfl
@[simp] theorem State.jump_flags (s : State) (target : Word) : (s.jump target).flags = s.flags := rfl
@[simp] theorem State.jump_pc (s : State) (target : Word) : (s.jump target).pc = target := rfl
@[simp] theorem State.jump_sp (s : State) (target : Word) : (s.jump target).sp = s.sp := rfl
@[simp] theorem State.jump_inte (s : State) (target : Word) : (s.jump target).inte = s.inte := rfl
@[simp] theorem State.jump_mem (s : State) (target : Word) : (s.jump target).mem = s.mem := rfl
@[simp] theorem State.jump_steps (s : State) (target : Word) : (s.jump target).steps = s.steps := rfl
@[simp] theorem State.jump_halted (s : State) (target : Word) : (s.jump target).halted = s.halted := rfl
@[simp] theorem State.jump_faultRecord (s : State) (target : Word) : (s.jump target).faultRecord = s.faultRecord := rfl

/-! ## retire -/

@[simp] theorem State.retire_regs (s : State) : s.retire.regs = s.regs := rfl
@[simp] theorem State.retire_flags (s : State) : s.retire.flags = s.flags := rfl
@[simp] theorem State.retire_pc (s : State) : s.retire.pc = s.pc := rfl
@[simp] theorem State.retire_sp (s : State) : s.retire.sp = s.sp := rfl
@[simp] theorem State.retire_inte (s : State) : s.retire.inte = s.inte := rfl
@[simp] theorem State.retire_mem (s : State) : s.retire.mem = s.mem := rfl
@[simp] theorem State.retire_steps (s : State) : s.retire.steps = s.steps + 1 := rfl
@[simp] theorem State.retire_halted (s : State) : s.retire.halted = s.halted := rfl
@[simp] theorem State.retire_faultRecord (s : State) : s.retire.faultRecord = s.faultRecord := rfl

/-! ## popped -/

@[simp] theorem State.popped_regs (s : State) : s.popped.regs = s.regs := rfl
@[simp] theorem State.popped_flags (s : State) : s.popped.flags = s.flags := rfl
@[simp] theorem State.popped_pc (s : State) : s.popped.pc = s.pc := rfl
@[simp] theorem State.popped_sp (s : State) : s.popped.sp = s.sp + 2 := rfl
@[simp] theorem State.popped_inte (s : State) : s.popped.inte = s.inte := rfl
@[simp] theorem State.popped_mem (s : State) : s.popped.mem = s.mem := rfl
@[simp] theorem State.popped_steps (s : State) : s.popped.steps = s.steps := rfl
@[simp] theorem State.popped_halted (s : State) : s.popped.halted = s.halted := rfl
@[simp] theorem State.popped_faultRecord (s : State) : s.popped.faultRecord = s.faultRecord := rfl

/-! ## setFlags -/

@[simp] theorem State.setFlags_regs (s : State) (f : Flags) : (s.setFlags f).regs = s.regs := rfl
@[simp] theorem State.setFlags_flags (s : State) (f : Flags) : (s.setFlags f).flags = f := rfl
@[simp] theorem State.setFlags_pc (s : State) (f : Flags) : (s.setFlags f).pc = s.pc := rfl
@[simp] theorem State.setFlags_sp (s : State) (f : Flags) : (s.setFlags f).sp = s.sp := rfl
@[simp] theorem State.setFlags_inte (s : State) (f : Flags) : (s.setFlags f).inte = s.inte := rfl
@[simp] theorem State.setFlags_mem (s : State) (f : Flags) : (s.setFlags f).mem = s.mem := rfl
@[simp] theorem State.setFlags_steps (s : State) (f : Flags) : (s.setFlags f).steps = s.steps := rfl
@[simp] theorem State.setFlags_halted (s : State) (f : Flags) : (s.setFlags f).halted = s.halted := rfl
@[simp] theorem State.setFlags_faultRecord (s : State) (f : Flags) : (s.setFlags f).faultRecord = s.faultRecord := rfl

/-! ## setInte -/

@[simp] theorem State.setInte_regs (s : State) (v : Bool) : (s.setInte v).regs = s.regs := rfl
@[simp] theorem State.setInte_flags (s : State) (v : Bool) : (s.setInte v).flags = s.flags := rfl
@[simp] theorem State.setInte_pc (s : State) (v : Bool) : (s.setInte v).pc = s.pc := rfl
@[simp] theorem State.setInte_sp (s : State) (v : Bool) : (s.setInte v).sp = s.sp := rfl
@[simp] theorem State.setInte_inte (s : State) (v : Bool) : (s.setInte v).inte = v := rfl
@[simp] theorem State.setInte_mem (s : State) (v : Bool) : (s.setInte v).mem = s.mem := rfl
@[simp] theorem State.setInte_steps (s : State) (v : Bool) : (s.setInte v).steps = s.steps := rfl
@[simp] theorem State.setInte_halted (s : State) (v : Bool) : (s.setInte v).halted = s.halted := rfl
@[simp] theorem State.setInte_faultRecord (s : State) (v : Bool) : (s.setInte v).faultRecord = s.faultRecord := rfl

/-! ## halt -/

@[simp] theorem State.halt_regs (s : State) : s.halt.regs = s.regs := rfl
@[simp] theorem State.halt_flags (s : State) : s.halt.flags = s.flags := rfl
@[simp] theorem State.halt_pc (s : State) : s.halt.pc = s.pc := rfl
@[simp] theorem State.halt_sp (s : State) : s.halt.sp = s.sp := rfl
@[simp] theorem State.halt_inte (s : State) : s.halt.inte = s.inte := rfl
@[simp] theorem State.halt_mem (s : State) : s.halt.mem = s.mem := rfl
@[simp] theorem State.halt_steps (s : State) : s.halt.steps = s.steps := rfl
@[simp] theorem State.halt_halted (s : State) : s.halt.halted = true := rfl
@[simp] theorem State.halt_faultRecord (s : State) : s.halt.faultRecord = s.faultRecord := rfl

/-! ## writeByte -/

@[simp] theorem State.writeByte_regs (s : State) (addr : Word) (v : Byte) : (s.writeByte addr v).regs = s.regs := rfl
@[simp] theorem State.writeByte_flags (s : State) (addr : Word) (v : Byte) : (s.writeByte addr v).flags = s.flags := rfl
@[simp] theorem State.writeByte_pc (s : State) (addr : Word) (v : Byte) : (s.writeByte addr v).pc = s.pc := rfl
@[simp] theorem State.writeByte_sp (s : State) (addr : Word) (v : Byte) : (s.writeByte addr v).sp = s.sp := rfl
@[simp] theorem State.writeByte_inte (s : State) (addr : Word) (v : Byte) : (s.writeByte addr v).inte = s.inte := rfl
@[simp] theorem State.writeByte_mem (s : State) (addr : Word) (v : Byte) :
    (s.writeByte addr v).mem = s.mem.write addr.toNat v := rfl
@[simp] theorem State.writeByte_steps (s : State) (addr : Word) (v : Byte) : (s.writeByte addr v).steps = s.steps := rfl
@[simp] theorem State.writeByte_halted (s : State) (addr : Word) (v : Byte) : (s.writeByte addr v).halted = s.halted := rfl
@[simp] theorem State.writeByte_faultRecord (s : State) (addr : Word) (v : Byte) :
    (s.writeByte addr v).faultRecord = s.faultRecord := rfl

/-! ## writeWord -/

@[simp] theorem State.writeWord_regs (s : State) (addr v : Word) : (s.writeWord addr v).regs = s.regs := rfl
@[simp] theorem State.writeWord_flags (s : State) (addr v : Word) : (s.writeWord addr v).flags = s.flags := rfl
@[simp] theorem State.writeWord_pc (s : State) (addr v : Word) : (s.writeWord addr v).pc = s.pc := rfl
@[simp] theorem State.writeWord_sp (s : State) (addr v : Word) : (s.writeWord addr v).sp = s.sp := rfl
@[simp] theorem State.writeWord_inte (s : State) (addr v : Word) : (s.writeWord addr v).inte = s.inte := rfl
@[simp] theorem State.writeWord_mem (s : State) (addr v : Word) :
    (s.writeWord addr v).mem = (s.mem.write addr.toNat (loByte v)).write (addr + 1).toNat (hiByte v) := rfl
@[simp] theorem State.writeWord_steps (s : State) (addr v : Word) : (s.writeWord addr v).steps = s.steps := rfl
@[simp] theorem State.writeWord_halted (s : State) (addr v : Word) : (s.writeWord addr v).halted = s.halted := rfl
@[simp] theorem State.writeWord_faultRecord (s : State) (addr v : Word) :
    (s.writeWord addr v).faultRecord = s.faultRecord := rfl

/-! ## push16 -/

@[simp] theorem State.push16_regs (s : State) (v : Word) : (s.push16 v).regs = s.regs := rfl
@[simp] theorem State.push16_flags (s : State) (v : Word) : (s.push16 v).flags = s.flags := rfl
@[simp] theorem State.push16_pc (s : State) (v : Word) : (s.push16 v).pc = s.pc := rfl
@[simp] theorem State.push16_sp (s : State) (v : Word) : (s.push16 v).sp = s.sp - 2 := rfl
@[simp] theorem State.push16_inte (s : State) (v : Word) : (s.push16 v).inte = s.inte := rfl
@[simp] theorem State.push16_mem (s : State) (v : Word) :
    (s.push16 v).mem = (s.mem.write (s.sp - 1).toNat (hiByte v)).write (s.sp - 2).toNat (loByte v) := rfl
@[simp] theorem State.push16_steps (s : State) (v : Word) : (s.push16 v).steps = s.steps := rfl
@[simp] theorem State.push16_halted (s : State) (v : Word) : (s.push16 v).halted = s.halted := rfl
@[simp] theorem State.push16_faultRecord (s : State) (v : Word) : (s.push16 v).faultRecord = s.faultRecord := rfl

/-! ## raiseUnimplementedOpcode -/

@[simp] theorem State.raiseUnimplementedOpcode_regs (s : State) (op : Byte) :
    (s.raiseUnimplementedOpcode op).regs = s.regs := rfl
@[simp] theorem State.raiseUnimplementedOpcode_flags (s : State) (op : Byte) :
    (s.raiseUnimplementedOpcode op).flags = s.flags := rfl
@[simp] theorem State.raiseUnimplementedOpcode_pc (s : State) (op : Byte) : (s.raiseUnimplementedOpcode op).pc = s.pc := rfl
@[simp] theorem State.raiseUnimplementedOpcode_sp (s : State) (op : Byte) : (s.raiseUnimplementedOpcode op).sp = s.sp := rfl
@[simp] theorem State.raiseUnimplementedOpcode_inte (s : State) (op : Byte) :
    (s.raiseUnimplementedOpcode op).inte = s.inte := rfl
@[simp] theorem State.raiseUnimplementedOpcode_mem (s : State) (op : Byte) : (s.raiseUnimplementedOpcode op).mem = s.mem := rfl
@[simp] theorem State.raiseUnimplementedOpcode_steps (s : State) (op : Byte) :
    (s.raiseUnimplementedOpcode op).steps = s.steps := rfl
@[simp] theorem State.raiseUnimplementedOpcode_halted (s : State) (op : Byte) :
    (s.raiseUnimplementedOpcode op).halted = s.halted := rfl
@[simp] theorem State.raiseUnimplementedOpcode_faultRecord (s : State) (op : Byte) :
    (s.raiseUnimplementedOpcode op).faultRecord = some { opcode := op, pc := s.pc, steps := s.steps } := rfl

/-! ## setA -/

@[simp] theorem State.setA_regs (s : State) (v : Byte) : (s.setA v).regs = { s.regs with a := v } := rfl
@[simp] theorem State.setA_flags (s : State) (v : Byte) : (s.setA v).flags = s.flags := rfl
@[simp] theorem State.setA_pc (s : State) (v : Byte) : (s.setA v).pc = s.pc := rfl
@[simp] theorem State.setA_sp (s : State) (v : Byte) : (s.setA v).sp = s.sp := rfl
@[simp] theorem State.setA_inte (s : State) (v : Byte) : (s.setA v).inte = s.inte := rfl
@[simp] theorem State.setA_mem (s : State) (v : Byte) : (s.setA v).mem = s.mem := rfl
@[simp] theorem State.setA_steps (s : State) (v : Byte) : (s.setA v).steps = s.steps := rfl
@[simp] theorem State.setA_halted (s : State) (v : Byte) : (s.setA v).halted = s.halted := rfl
@[simp] theorem State.setA_faultRecord (s : State) (v : Byte) : (s.setA v).faultRecord = s.faultRecord := rfl

/-! ## writeOperand: a register or memory, by the operand -/

@[simp] theorem State.writeOperand_flags (s : State) (dst : Operand8) (v : Byte) :
    (s.writeOperand dst v).flags = s.flags := by
  cases dst <;> rfl
@[simp] theorem State.writeOperand_pc (s : State) (dst : Operand8) (v : Byte) :
    (s.writeOperand dst v).pc = s.pc := by
  cases dst <;> rfl
@[simp] theorem State.writeOperand_sp (s : State) (dst : Operand8) (v : Byte) :
    (s.writeOperand dst v).sp = s.sp := by
  cases dst <;> rfl
@[simp] theorem State.writeOperand_inte (s : State) (dst : Operand8) (v : Byte) :
    (s.writeOperand dst v).inte = s.inte := by
  cases dst <;> rfl
@[simp] theorem State.writeOperand_steps (s : State) (dst : Operand8) (v : Byte) :
    (s.writeOperand dst v).steps = s.steps := by
  cases dst <;> rfl
@[simp] theorem State.writeOperand_halted (s : State) (dst : Operand8) (v : Byte) :
    (s.writeOperand dst v).halted = s.halted := by
  cases dst <;> rfl
@[simp] theorem State.writeOperand_faultRecord (s : State) (dst : Operand8) (v : Byte) :
    (s.writeOperand dst v).faultRecord = s.faultRecord := by
  cases dst <;> rfl
/-- A register destination leaves memory alone. -/
theorem State.writeOperand_mem (s : State) {dst : Operand8} (h : dst ≠ .m) (v : Byte) :
    (s.writeOperand dst v).mem = s.mem := by
  cases dst <;> first | rfl | exact absurd rfl h
@[simp] theorem State.writeOperand_m (s : State) (v : Byte) : s.writeOperand .m v = s.writeByte s.hl v := rfl

/-! ## writePair: two registers or SP, by the pair -/

@[simp] theorem State.writePair_flags (s : State) (rp : RegPair) (v : Word) : (s.writePair rp v).flags = s.flags := by
  cases rp <;> rfl
@[simp] theorem State.writePair_pc (s : State) (rp : RegPair) (v : Word) : (s.writePair rp v).pc = s.pc := by
  cases rp <;> rfl
@[simp] theorem State.writePair_inte (s : State) (rp : RegPair) (v : Word) : (s.writePair rp v).inte = s.inte := by
  cases rp <;> rfl
@[simp] theorem State.writePair_mem (s : State) (rp : RegPair) (v : Word) : (s.writePair rp v).mem = s.mem := by
  cases rp <;> rfl
@[simp] theorem State.writePair_steps (s : State) (rp : RegPair) (v : Word) : (s.writePair rp v).steps = s.steps := by
  cases rp <;> rfl
@[simp] theorem State.writePair_halted (s : State) (rp : RegPair) (v : Word) : (s.writePair rp v).halted = s.halted := by
  cases rp <;> rfl
@[simp] theorem State.writePair_faultRecord (s : State) (rp : RegPair) (v : Word) : (s.writePair rp v).faultRecord = s.faultRecord := by
  cases rp <;> rfl
/-- A register pair leaves SP alone. -/
theorem State.writePair_sp (s : State) {rp : RegPair} (h : rp ≠ .sp) (v : Word) : (s.writePair rp v).sp = s.sp := by
  cases rp <;> first | rfl | exact absurd rfl h
@[simp] theorem State.writePair_sp_sp (s : State) (v : Word) : (s.writePair .sp v).sp = v := rfl
@[simp] theorem State.writePair_sp_regs (s : State) (v : Word) : (s.writePair .sp v).regs = s.regs := rfl
@[simp] theorem State.writePair_bc_regs (s : State) (v : Word) :
    (s.writePair .bc v).regs = { s.regs with b := hiByte v, c := loByte v } := rfl
@[simp] theorem State.writePair_de_regs (s : State) (v : Word) :
    (s.writePair .de v).regs = { s.regs with d := hiByte v, e := loByte v } := rfl
@[simp] theorem State.writePair_hl_regs (s : State) (v : Word) :
    (s.writePair .hl v).regs = { s.regs with h := hiByte v, l := loByte v } := rfl

/-! ## Reads that an update of another field does not disturb -/

@[simp] theorem State.advance_readByte (s : State) (n : Nat) (a : Word) : (s.advance n).readByte a = s.readByte a := rfl
@[simp] theorem State.advance_readWord (s : State) (n : Nat) (a : Word) : (s.advance n).readWord a = s.readWord a := rfl
@[simp] theorem State.advance_hl (s : State) (n : Nat) : (s.advance n).hl = s.hl := rfl
@[simp] theorem State.advance_readPair (s : State) (n : Nat) (rp : RegPair) :
    (s.advance n).readPair rp = s.readPair rp := by cases rp <;> rfl
@[simp] theorem State.advance_indexAddr (s : State) (n : Nat) (ix : IndexPair) :
    (s.advance n).indexAddr ix = s.indexAddr ix := by cases ix <;> rfl
@[simp] theorem State.advance_readOperand (s : State) (n : Nat) (o : Operand8) :
    (s.advance n).readOperand o = s.readOperand o := by cases o <;> rfl

@[simp] theorem State.jump_readByte (s : State) (target : Word) (a : Word) : (s.jump target).readByte a = s.readByte a := rfl
@[simp] theorem State.jump_readWord (s : State) (target : Word) (a : Word) : (s.jump target).readWord a = s.readWord a := rfl
@[simp] theorem State.jump_hl (s : State) (target : Word) : (s.jump target).hl = s.hl := rfl
@[simp] theorem State.jump_readPair (s : State) (target : Word) (rp : RegPair) :
    (s.jump target).readPair rp = s.readPair rp := by cases rp <;> rfl
@[simp] theorem State.jump_indexAddr (s : State) (target : Word) (ix : IndexPair) :
    (s.jump target).indexAddr ix = s.indexAddr ix := by cases ix <;> rfl
@[simp] theorem State.jump_readOperand (s : State) (target : Word) (o : Operand8) :
    (s.jump target).readOperand o = s.readOperand o := by cases o <;> rfl

@[simp] theorem State.retire_readByte (s : State) (a : Word) : s.retire.readByte a = s.readByte a := rfl
@[simp] theorem State.retire_readWord (s : State) (a : Word) : s.retire.readWord a = s.readWord a := rfl
@[simp] theorem State.retire_hl (s : State) : s.retire.hl = s.hl := rfl
@[simp] theorem State.retire_readPair (s : State) (rp : RegPair) : s.retire.readPair rp = s.readPair rp := by cases rp <;> rfl
@[simp] theorem State.retire_indexAddr (s : State) (ix : IndexPair) :
    s.retire.indexAddr ix = s.indexAddr ix := by cases ix <;> rfl
@[simp] theorem State.retire_readOperand (s : State) (o : Operand8) :
    s.retire.readOperand o = s.readOperand o := by cases o <;> rfl

@[simp] theorem State.popped_readByte (s : State) (a : Word) : s.popped.readByte a = s.readByte a := rfl
@[simp] theorem State.popped_readWord (s : State) (a : Word) : s.popped.readWord a = s.readWord a := rfl
@[simp] theorem State.popped_hl (s : State) : s.popped.hl = s.hl := rfl
@[simp] theorem State.popped_indexAddr (s : State) (ix : IndexPair) :
    s.popped.indexAddr ix = s.indexAddr ix := by cases ix <;> rfl
@[simp] theorem State.popped_readOperand (s : State) (o : Operand8) :
    s.popped.readOperand o = s.readOperand o := by cases o <;> rfl

@[simp] theorem State.setFlags_readByte (s : State) (f : Flags) (a : Word) : (s.setFlags f).readByte a = s.readByte a := rfl
@[simp] theorem State.setFlags_readWord (s : State) (f : Flags) (a : Word) : (s.setFlags f).readWord a = s.readWord a := rfl
@[simp] theorem State.setFlags_hl (s : State) (f : Flags) : (s.setFlags f).hl = s.hl := rfl
@[simp] theorem State.setFlags_readPair (s : State) (f : Flags) (rp : RegPair) :
    (s.setFlags f).readPair rp = s.readPair rp := by cases rp <;> rfl
@[simp] theorem State.setFlags_indexAddr (s : State) (f : Flags) (ix : IndexPair) :
    (s.setFlags f).indexAddr ix = s.indexAddr ix := by cases ix <;> rfl
@[simp] theorem State.setFlags_readOperand (s : State) (f : Flags) (o : Operand8) :
    (s.setFlags f).readOperand o = s.readOperand o := by cases o <;> rfl

@[simp] theorem State.setInte_readByte (s : State) (v : Bool) (a : Word) : (s.setInte v).readByte a = s.readByte a := rfl
@[simp] theorem State.setInte_readWord (s : State) (v : Bool) (a : Word) : (s.setInte v).readWord a = s.readWord a := rfl
@[simp] theorem State.setInte_hl (s : State) (v : Bool) : (s.setInte v).hl = s.hl := rfl
@[simp] theorem State.setInte_readPair (s : State) (v : Bool) (rp : RegPair) :
    (s.setInte v).readPair rp = s.readPair rp := by cases rp <;> rfl
@[simp] theorem State.setInte_indexAddr (s : State) (v : Bool) (ix : IndexPair) :
    (s.setInte v).indexAddr ix = s.indexAddr ix := by cases ix <;> rfl
@[simp] theorem State.setInte_readOperand (s : State) (v : Bool) (o : Operand8) :
    (s.setInte v).readOperand o = s.readOperand o := by cases o <;> rfl

@[simp] theorem State.halt_readByte (s : State) (a : Word) : s.halt.readByte a = s.readByte a := rfl
@[simp] theorem State.halt_readWord (s : State) (a : Word) : s.halt.readWord a = s.readWord a := rfl
@[simp] theorem State.halt_hl (s : State) : s.halt.hl = s.hl := rfl
@[simp] theorem State.halt_readPair (s : State) (rp : RegPair) : s.halt.readPair rp = s.readPair rp := by cases rp <;> rfl
@[simp] theorem State.halt_indexAddr (s : State) (ix : IndexPair) : s.halt.indexAddr ix = s.indexAddr ix := by cases ix <;> rfl
@[simp] theorem State.halt_readOperand (s : State) (o : Operand8) :
    s.halt.readOperand o = s.readOperand o := by cases o <;> rfl

@[simp] theorem State.writeByte_hl (s : State) (addr : Word) (v : Byte) : (s.writeByte addr v).hl = s.hl := rfl
@[simp] theorem State.writeByte_readPair (s : State) (addr : Word) (v : Byte) (rp : RegPair) :
    (s.writeByte addr v).readPair rp = s.readPair rp := by cases rp <;> rfl
@[simp] theorem State.writeByte_indexAddr (s : State) (addr : Word) (v : Byte) (ix : IndexPair) :
    (s.writeByte addr v).indexAddr ix = s.indexAddr ix := by cases ix <;> rfl

@[simp] theorem State.raiseUnimplementedOpcode_readByte (s : State) (op : Byte) (a : Word) :
    (s.raiseUnimplementedOpcode op).readByte a = s.readByte a := rfl
@[simp] theorem State.raiseUnimplementedOpcode_readWord (s : State) (op : Byte) (a : Word) :
    (s.raiseUnimplementedOpcode op).readWord a = s.readWord a := rfl
@[simp] theorem State.raiseUnimplementedOpcode_hl (s : State) (op : Byte) : (s.raiseUnimplementedOpcode op).hl = s.hl := rfl
@[simp] theorem State.raiseUnimplementedOpcode_readPair (s : State) (op : Byte) (rp : RegPair) :
    (s.raiseUnimplementedOpcode op).readPair rp = s.readPair rp := by cases rp <;> rfl
@[simp] theorem State.raiseUnimplementedOpcode_indexAddr (s : State) (op : Byte) (ix : IndexPair) :
    (s.raiseUnimplementedOpcode op).indexAddr ix = s.indexAddr ix := by cases ix <;> rfl
@[simp] theorem State.raiseUnimplementedOpcode_readOperand (s : State) (op : Byte) (o : Operand8) :
    (s.raiseUnimplementedOpcode op).readOperand o = s.readOperand o := by cases o <;> rfl

@[simp] theorem State.setA_readByte (s : State) (v : Byte) (a : Word) : (s.setA v).readByte a = s.readByte a := rfl
@[simp] theorem State.setA_readWord (s : State) (v : Byte) (a : Word) : (s.setA v).readWord a = s.readWord a := rfl
@[simp] theorem State.setA_hl (s : State) (v : Byte) : (s.setA v).hl = s.hl := rfl
@[simp] theorem State.setA_readPair (s : State) (v : Byte) (rp : RegPair) :
    (s.setA v).readPair rp = s.readPair rp := by cases rp <;> rfl
@[simp] theorem State.setA_indexAddr (s : State) (v : Byte) (ix : IndexPair) :
    (s.setA v).indexAddr ix = s.indexAddr ix := by cases ix <;> rfl

/-! ## Flags -/

@[simp] theorem Flags.setZsp_z (f : Flags) (v : Byte) : (f.setZsp v).z = decide (v = 0) := rfl
@[simp] theorem Flags.setZsp_s (f : Flags) (v : Byte) : (f.setZsp v).s = v.getLsbD 7 := rfl
@[simp] theorem Flags.setZsp_p (f : Flags) (v : Byte) : (f.setZsp v).p = parity8 v := rfl
@[simp] theorem Flags.setZsp_cy (f : Flags) (v : Byte) : (f.setZsp v).cy = f.cy := rfl
@[simp] theorem Flags.setZsp_ac (f : Flags) (v : Byte) : (f.setZsp v).ac = f.ac := rfl

@[simp] theorem Flags.ofSum_z (f : Flags) (x : Sum8) : (f.ofSum x).z = decide (x.r = 0) := rfl
@[simp] theorem Flags.ofSum_s (f : Flags) (x : Sum8) : (f.ofSum x).s = x.r.getLsbD 7 := rfl
@[simp] theorem Flags.ofSum_p (f : Flags) (x : Sum8) : (f.ofSum x).p = parity8 x.r := rfl
@[simp] theorem Flags.ofSum_cy (f : Flags) (x : Sum8) : (f.ofSum x).cy = x.cy := rfl
@[simp] theorem Flags.ofSum_ac (f : Flags) (x : Sum8) : (f.ofSum x).ac = x.ac := rfl

@[simp] theorem Flags.ofIncDec_z (f : Flags) (x : Sum8) : (f.ofIncDec x).z = decide (x.r = 0) := rfl
@[simp] theorem Flags.ofIncDec_s (f : Flags) (x : Sum8) : (f.ofIncDec x).s = x.r.getLsbD 7 := rfl
@[simp] theorem Flags.ofIncDec_p (f : Flags) (x : Sum8) : (f.ofIncDec x).p = parity8 x.r := rfl
@[simp] theorem Flags.ofIncDec_cy (f : Flags) (x : Sum8) : (f.ofIncDec x).cy = f.cy := rfl
@[simp] theorem Flags.ofIncDec_ac (f : Flags) (x : Sum8) : (f.ofIncDec x).ac = x.ac := rfl

@[simp] theorem Flags.ofLogic_z (f : Flags) (r : Byte) : (f.ofLogic r).z = decide (r = 0) := rfl
@[simp] theorem Flags.ofLogic_s (f : Flags) (r : Byte) : (f.ofLogic r).s = r.getLsbD 7 := rfl
@[simp] theorem Flags.ofLogic_p (f : Flags) (r : Byte) : (f.ofLogic r).p = parity8 r := rfl
@[simp] theorem Flags.ofLogic_cy (f : Flags) (r : Byte) : (f.ofLogic r).cy = false := rfl
@[simp] theorem Flags.ofLogic_ac (f : Flags) (r : Byte) : (f.ofLogic r).ac = false := rfl

@[simp] theorem Flags.setCy_z (f : Flags) (c : Bool) : (f.setCy c).z = f.z := rfl
@[simp] theorem Flags.setCy_s (f : Flags) (c : Bool) : (f.setCy c).s = f.s := rfl
@[simp] theorem Flags.setCy_p (f : Flags) (c : Bool) : (f.setCy c).p = f.p := rfl
@[simp] theorem Flags.setCy_cy (f : Flags) (c : Bool) : (f.setCy c).cy = c := rfl
@[simp] theorem Flags.setCy_ac (f : Flags) (c : Bool) : (f.setCy c).ac = f.ac := rfl

end Sys2Proof.Machine
end

