-- ==== Sys2Proof/Laws/Ops.lean ====
section
/-! SUPPORT. One lemma per shared operation over bytes, memory and the stack, which says what it does. -/

namespace Sys2Proof.Machine

/-! ## Bytes and words -/

@[simp] theorem hiByte_joinBytes (h l : Byte) : hiByte (joinBytes h l) = h := by
  apply BitVec.eq_of_getLsbD_eq
  intro i hi
  simp only [hiByte, joinBytes, BitVec.getLsbD_extractLsb', BitVec.getLsbD_append]
  simp [hi]

@[simp] theorem loByte_joinBytes (h l : Byte) : loByte (joinBytes h l) = l := by
  apply BitVec.eq_of_getLsbD_eq
  intro i hi
  simp only [loByte, joinBytes, BitVec.getLsbD_extractLsb', BitVec.getLsbD_append]
  simp [hi]

theorem hiByte_toNat (v : Word) : (hiByte v).toNat = v.toNat / 256 := by
  have := v.isLt
  simp [hiByte, BitVec.extractLsb'_toNat, Nat.shiftRight_eq_div_pow]
  omega

theorem loByte_toNat (v : Word) : (loByte v).toNat = v.toNat % 256 := by
  simp [loByte, BitVec.extractLsb'_toNat]

theorem joinBytes_toNat (h l : Byte) : (joinBytes h l).toNat = h.toNat * 256 + l.toNat := by
  have hh := hiByte_toNat (joinBytes h l)
  have hl := loByte_toNat (joinBytes h l)
  simp only [hiByte_joinBytes, loByte_joinBytes] at hh hl
  omega

@[simp] theorem joinBytes_hi_lo (v : Word) : joinBytes (hiByte v) (loByte v) = v := by
  apply BitVec.eq_of_toNat_eq
  rw [joinBytes_toNat, hiByte_toNat, loByte_toNat]
  omega

/-! ## Memory -/

/-- A byte read after a byte written. -/
theorem State.readByte_writeByte (s : State) (a b : Word) (v : Byte) :
    (s.writeByte a v).readByte b = if b = a then v else s.readByte b := by
  simp only [State.readByte, State.writeByte, Memory.read_write, BitVec.toNat_inj]

@[simp] theorem State.readByte_writeByte_same (s : State) (a : Word) (v : Byte) : (s.writeByte a v).readByte a = v := by
  simp [State.readByte_writeByte]

theorem State.readByte_writeByte_other (s : State) {a b : Word} (v : Byte) (h : b ≠ a) :
    (s.writeByte a v).readByte b = s.readByte b := by
  simp [State.readByte_writeByte, h]

theorem add_one_ne (a : Word) : a + 1 ≠ a := by
  intro h
  have := congrArg BitVec.toNat h
  simp [BitVec.toNat_add] at this
  omega

theorem sub_two_ne_sub_one (a : Word) : a - 2 ≠ a - 1 := by
  intro h
  have := congrArg BitVec.toNat h
  simp [BitVec.toNat_sub] at this
  omega

/-- A byte read after a word written: the low byte at the address, the high byte at the next. -/
theorem State.readByte_writeWord (s : State) (a b v : Word) :
    (s.writeWord a v).readByte b = if b = a + 1 then hiByte v else if b = a then loByte v else s.readByte b := by
  simp only [State.writeWord, State.readByte_writeByte]

/-- A word written is the word read. -/
theorem State.readWord_writeWord (s : State) (a v : Word) : (s.writeWord a v).readWord a = v := by
  simp [State.readWord, State.readByte_writeWord]

/-- Every store keeps the canonical form of memory. -/
theorem State.writeByte_wf (s : State) (h : s.mem.wf = true) (a : Word) (v : Byte) : (s.writeByte a v).mem.wf = true :=
  Memory.wf_write h a.isLt v

theorem State.writeWord_wf (s : State) (h : s.mem.wf = true) (a v : Word) : (s.writeWord a v).mem.wf = true :=
  State.writeByte_wf _ (State.writeByte_wf s h a _) _ _

theorem State.push16_wf (s : State) (h : s.mem.wf = true) (v : Word) : (s.push16 v).mem.wf = true :=
  State.writeByte_wf _ (State.writeByte_wf s h _ _) _ _

/-! ## The stack -/

/-- A byte read after a push, before SP is looked at: the push as two byte writes. -/
theorem State.push16_readByte_eq (s : State) (v a : Word) :
    (s.push16 v).readByte a = ((s.writeByte (s.sp - 1) (hiByte v)).writeByte (s.sp - 2) (loByte v)).readByte a := rfl

/-- The other fields of the register file and the pairs do not see a push. -/
@[simp] theorem State.push16_hl (s : State) (v : Word) : (s.push16 v).hl = s.hl := rfl

/-! ## The end of a step -/

theorem finish_eq (s : State) : finish s = .next s.retire := rfl

/-- A completed instruction answers next: the state it built, counted. -/
theorem finish_eq_next {s t : State} (h : finish s = .next t) : t = s.retire := by
  cases h
  rfl

end Sys2Proof.Machine
end

