-- ==== Sys2Proof/Laws/Fetch.lean ====
section
/-! SUPPORT. Fetching and decoding agree, the word placed for the next step is the word it fetches, and every meaning has one of
two shapes. -/

namespace Sys2Proof.Machine

/-! ## Fetch -/

/-- The decoder, given the three bytes at PC, gives the instruction that the step runs. -/
theorem State.decode_codeBytes (s : State) : ∃ rest, decode s.codeBytes = .instr s.fetch rest := by
  simp only [State.codeBytes, State.fetch, decode]
  cases opForm (s.codeByte 0) with
  | op i => exact ⟨_, rfl⟩
  | opD8 mk => exact ⟨_, rfl⟩
  | opD16 mk => exact ⟨_, rfl⟩

/-- A running core's step is the meaning of the fetched instruction. -/
theorem step_running {s : State} (h : s.running) : step s = exec s.fetch s := by
  simp [step, h.1, h.2]

theorem step_halted {s : State} (hf : s.faultRecord = none) (hh : s.halted = true) : step s = .next s := by
  simp [step, hf, hh]

theorem step_faulted {s : State} {r : FaultRecord} (h : s.faultRecord = some r) : step s = .fault r.toFault := by
  simp [step, h]

/-! ## Placing a word -/

theorem State.withCode_running (s : State) (bytes : List Byte) : (s.withCode bytes).running := ⟨rfl, rfl⟩

/-- The addresses of the bytes of an instruction are distinct. -/
theorem codeAddr_ne (pc : Word) {j k : Nat} (hj : j < 3) (hk : k < 3) (h : j ≠ k) :
    pc + BitVec.ofNat 16 j ≠ pc + BitVec.ofNat 16 k := by
  intro e
  have := congrArg BitVec.toNat e
  simp only [BitVec.toNat_add, BitVec.toNat_ofNat] at this
  omega

/-- The bytes placed are the bytes fetched. -/
theorem State.withCode_codeBytes (s : State) (b0 b1 b2 : Byte) : (s.withCode [b0, b1, b2]).codeBytes = [b0, b1, b2] := by
  have h01 := codeAddr_ne s.pc (j := 0) (k := 1) (by omega) (by omega) (by omega)
  have h02 := codeAddr_ne s.pc (j := 0) (k := 2) (by omega) (by omega) (by omega)
  have h12 := codeAddr_ne s.pc (j := 1) (k := 2) (by omega) (by omega) (by omega)
  simp only [State.codeBytes, State.codeByte, State.withCode, State.putCodeByte, State.writeByte_pc,
    List.getD_cons_zero, List.getD_cons_succ]
  rw [State.readByte_writeByte_other _ _ h02, State.readByte_writeByte_other _ _ h01, State.readByte_writeByte_same,
    State.readByte_writeByte_other _ _ h12, State.readByte_writeByte_same, State.readByte_writeByte_same]

/-! ## What a meaning can answer -/

/-- Every meaning either takes the exception or completes: it then answers the state it built, counted, and leaves the count and
the fault record to the end of the step. -/
theorem exec_shape (i : Instr) (s : State) :
    (∃ op, i = .undefined op ∧ exec i s = .next (s.raiseUnimplementedOpcode op)) ∨
    ((∀ op, i ≠ .undefined op) ∧
      ∃ u : State, exec i s = .next u.retire ∧ u.steps = s.steps ∧ u.faultRecord = s.faultRecord) := by
  have hcall : ∀ (u : State) (cond : Cond) (a : Word),
      (u.callIf cond a).steps = u.steps ∧ (u.callIf cond a).faultRecord = u.faultRecord := by
    intro u cond a
    unfold State.callIf
    split <;> exact ⟨rfl, rfl⟩
  have hjump : ∀ (u : State) (cond : Cond) (a : Word),
      (u.jumpIf cond a).steps = u.steps ∧ (u.jumpIf cond a).faultRecord = u.faultRecord := by
    intro u cond a
    unfold State.jumpIf
    split <;> exact ⟨rfl, rfl⟩
  have hret : ∀ (u : State) (cond : Cond),
      (u.returnIf cond).steps = u.steps ∧ (u.returnIf cond).faultRecord = u.faultRecord := by
    intro u cond
    unfold State.returnIf
    split <;> exact ⟨rfl, rfl⟩
  cases i
  case undefined op => exact .inl ⟨op, rfl, rfl⟩
  all_goals refine .inr ⟨by simp, _, rfl, ?_⟩
  case mvi dst _ => cases dst <;> exact ⟨rfl, rfl⟩
  case mov dst _ => cases dst <;> exact ⟨rfl, rfl⟩
  case inr dst => cases dst <;> exact ⟨rfl, rfl⟩
  case dcr dst => cases dst <;> exact ⟨rfl, rfl⟩
  case lxi rp _ => cases rp <;> exact ⟨rfl, rfl⟩
  case inx rp => cases rp <;> exact ⟨rfl, rfl⟩
  case dcx rp => cases rp <;> exact ⟨rfl, rfl⟩
  case pop rp => cases rp <;> exact ⟨rfl, rfl⟩
  all_goals first
    | exact ⟨rfl, rfl⟩
    | exact hjump _ _ _
    | exact hcall _ _ _
    | exact hret _ _

end Sys2Proof.Machine
end

