-- ==== Sys2Proof/Laws/Flags.lean ====
section
/-! SUPPORT. The adder and the subtractor in exact integers, and the flag byte both ways. -/

namespace Sys2Proof.Machine

theorem nibble_toNat (v : Byte) : (nibble v).toNat = v.toNat % 16 := by
  simp [nibble, BitVec.extractLsb'_toNat]
  omega

theorem nibble_not_toNat (v : Byte) : (nibble (~~~v)).toNat = 15 - v.toNat % 16 := by
  rw [nibble_toNat, BitVec.toNat_not]
  have := v.isLt
  omega

theorem carryBits_toNat {n : Nat} (hn : 1 ≤ n) (c : Bool) : (carryBits n c).toNat = c.toNat := by
  have h : 2 ^ 1 ≤ 2 ^ n := Nat.pow_le_pow_right (by omega) hn
  have hc : c.toNat < 2 ^ n := by cases c <;> simp <;> omega
  simpa [carryBits] using Nat.mod_eq_of_lt hc

/-- Bit `n` of a value below `2 ^ (n + 1)`: whether it reaches `2 ^ n`. -/
theorem topBit_iff {w n : Nat} (v : BitVec w) (h : v.toNat < 2 ^ (n + 1)) : v.getLsbD n = true ↔ 2 ^ n ≤ v.toNat := by
  rw [BitVec.getLsbD, Nat.testBit_eq_decide_div_mod_eq, decide_eq_true_eq, Nat.pow_succ] at *
  have hpos : 0 < 2 ^ n := Nat.two_pow_pos n
  constructor
  · intro h1
    rcases Nat.lt_or_ge v.toNat (2 ^ n) with hlt | hge
    · rw [Nat.div_eq_of_lt hlt] at h1
      omega
    · exact hge
  · intro hge
    have h1 : v.toNat / 2 ^ n = 1 := by
      rw [Nat.div_eq_iff hpos]
      omega
    rw [h1]

/-! ## add8 (R14) -/

theorem add8_r_toNat (a b : Byte) (c : Bool) : (add8 a b c).r.toNat = (a.toNat + b.toNat + c.toNat) % 256 := by
  simp [add8, BitVec.toNat_add, carryBits_toNat]

theorem add8_cy_iff (a b : Byte) (c : Bool) : (add8 a b c).cy = true ↔ 255 < a.toNat + b.toNat + c.toNat := by
  have ha := a.isLt
  have hb := b.isLt
  have hc : c.toNat ≤ 1 := Bool.toNat_le c
  have hs : (a.setWidth 9 + b.setWidth 9 + carryBits 9 c).toNat = a.toNat + b.toNat + c.toNat := by
    simp [BitVec.toNat_add, carryBits_toNat]
    omega
  simp only [add8]
  rw [topBit_iff _ (BitVec.isLt _), hs]
  omega

theorem add8_ac_iff (a b : Byte) (c : Bool) :
    (add8 a b c).ac = true ↔ 15 < a.toNat % 16 + b.toNat % 16 + c.toNat := by
  have hc : c.toNat ≤ 1 := Bool.toNat_le c
  have hs : (nibble a + nibble b + carryBits 5 c).toNat = a.toNat % 16 + b.toNat % 16 + c.toNat := by
    simp [BitVec.toNat_add, carryBits_toNat, nibble_toNat]
    omega
  simp only [add8]
  rw [topBit_iff _ (BitVec.isLt _), hs]
  omega

/-! ## sub8 (R15) -/

theorem sub8_diff_toNat (a b : Byte) (c : Bool) :
    (a.setWidth 16 - b.setWidth 16 - carryBits 16 c).toNat = (65536 + a.toNat - b.toNat - c.toNat) % 65536 := by
  have ha := a.isLt
  have hb := b.isLt
  have hc : c.toNat ≤ 1 := Bool.toNat_le c
  simp [BitVec.toNat_sub, carryBits_toNat]
  omega

theorem sub8_r_toNat (a b : Byte) (c : Bool) : (sub8 a b c).r.toNat = (512 + a.toNat - b.toNat - c.toNat) % 256 := by
  have ha := a.isLt
  have hb := b.isLt
  have hc : c.toNat ≤ 1 := Bool.toNat_le c
  simp only [sub8, BitVec.toNat_setWidth, sub8_diff_toNat]
  omega

/-- CY after a subtraction is the borrow (R15, its derivation). -/
theorem sub8_cy_iff (a b : Byte) (c : Bool) : (sub8 a b c).cy = true ↔ a.toNat < b.toNat + c.toNat := by
  have ha := a.isLt
  have hb := b.isLt
  have hc : c.toNat ≤ 1 := Bool.toNat_le c
  simp only [sub8, BitVec.getLsbD, sub8_diff_toNat, Nat.testBit_eq_decide_div_mod_eq, decide_eq_true_eq]
  omega

/-- AC after a subtraction: no borrow out of the low nibble (R15, its last sentence). -/
theorem sub8_ac_iff (a b : Byte) (c : Bool) :
    (sub8 a b c).ac = true ↔ b.toNat % 16 + c.toNat ≤ a.toNat % 16 := by
  have hc : (!c).toNat + c.toNat = 1 := by cases c <;> rfl
  have hs : (nibble a + nibble (~~~b) + carryBits 5 (!c)).toNat = a.toNat % 16 + (15 - b.toNat % 16) + (!c).toNat := by
    simp only [BitVec.toNat_add, carryBits_toNat (by omega : 1 ≤ 5), nibble_toNat a, nibble_not_toNat]
    omega
  simp only [sub8]
  rw [topBit_iff _ (BitVec.isLt _), hs]
  omega

/-! ## Z and S from a result -/

theorem signBit_iff (v : Byte) : v.getLsbD 7 = true ↔ 128 ≤ v.toNat := topBit_iff v (n := 7) v.isLt

/-! ## The flag byte (R79) -/

/-- Unpacking what was packed gives the five flags back. -/
@[simp] theorem unpackFlags_pack (f : Flags) : unpackFlags f.pack = f := by
  obtain ⟨z, s, p, cy, ac⟩ := f
  revert z s p cy ac
  decide

end Sys2Proof.Machine
end

