-- ==== Sys2Proof/Laws/PerInstr.lean ====
section
/-! SUPPORT. Statements made of every instruction, one lemma per constructor. Family EncodeLength: an encoded instruction has as
many bytes as the decoder takes for its opcode byte (R70, R71). -/

namespace Sys2Proof.Laws.EncodeLength

/-- The encoder and the decoder agree on the length of an instruction. -/
def Statement (i : Instr) : Prop := i.wf = true → (encode i).length = (opForm (opcode i)).length

/-- Enough: the opcode byte and the two lengths. -/
theorem ofOpcode {i : Instr} {op : Byte} {n : Nat} (hop : opcode i = op) (hi : (operandBytes i).length + 1 = n)
    (hn : (opForm op).length = n) : Statement i := by
  intro _
  rw [hop, hn, ← hi]
  rfl

theorem nop : Statement .nop := fun _ => rfl

theorem mvi (dst : Operand8) (d8 : Byte) : Statement (.mvi dst d8) := ofOpcode (op := opcodeBits 0b00 dst.code 0b110) rfl rfl (by cases dst <;> rfl)

theorem lxi (rp : RegPair) (d16 : Word) : Statement (.lxi rp d16) := ofOpcode (op := opcodePair 0b00 rp.code 0 0b001) rfl rfl (by cases rp <;> rfl)

theorem mov (dst src : Operand8) : Statement (.mov dst src) := by
  intro _
  cases dst <;> cases src <;> rfl

theorem inr (dst : Operand8) : Statement (.inr dst) := by
  intro _
  cases dst <;> rfl

theorem dcr (dst : Operand8) : Statement (.dcr dst) := by
  intro _
  cases dst <;> rfl

theorem inx (rp : RegPair) : Statement (.inx rp) := by
  intro _
  cases rp <;> rfl

theorem dcx (rp : RegPair) : Statement (.dcx rp) := by
  intro _
  cases rp <;> rfl

theorem dad (rp : RegPair) : Statement (.dad rp) := by
  intro _
  cases rp <;> rfl

theorem add (src : Operand8) : Statement (.add src) := by
  intro _
  cases src <;> rfl

theorem adc (src : Operand8) : Statement (.adc src) := by
  intro _
  cases src <;> rfl

theorem sub (src : Operand8) : Statement (.sub src) := by
  intro _
  cases src <;> rfl

theorem sbb (src : Operand8) : Statement (.sbb src) := by
  intro _
  cases src <;> rfl

theorem ana (src : Operand8) : Statement (.ana src) := by
  intro _
  cases src <;> rfl

theorem xra (src : Operand8) : Statement (.xra src) := by
  intro _
  cases src <;> rfl

theorem ora (src : Operand8) : Statement (.ora src) := by
  intro _
  cases src <;> rfl

theorem cmp (src : Operand8) : Statement (.cmp src) := by
  intro _
  cases src <;> rfl

theorem adi (d8 : Byte) : Statement (.adi d8) := ofOpcode (op := 0xC6) rfl rfl rfl

theorem aci (d8 : Byte) : Statement (.aci d8) := ofOpcode (op := 0xCE) rfl rfl rfl

theorem sui (d8 : Byte) : Statement (.sui d8) := ofOpcode (op := 0xD6) rfl rfl rfl

theorem sbi (d8 : Byte) : Statement (.sbi d8) := ofOpcode (op := 0xDE) rfl rfl rfl

theorem ani (d8 : Byte) : Statement (.ani d8) := ofOpcode (op := 0xE6) rfl rfl rfl

theorem xri (d8 : Byte) : Statement (.xri d8) := ofOpcode (op := 0xEE) rfl rfl rfl

theorem ori (d8 : Byte) : Statement (.ori d8) := ofOpcode (op := 0xF6) rfl rfl rfl

theorem cpi (d8 : Byte) : Statement (.cpi d8) := ofOpcode (op := 0xFE) rfl rfl rfl

theorem sta (a16 : Word) : Statement (.sta a16) := ofOpcode (op := 0x32) rfl rfl rfl

theorem lda (a16 : Word) : Statement (.lda a16) := ofOpcode (op := 0x3A) rfl rfl rfl

theorem shld (a16 : Word) : Statement (.shld a16) := ofOpcode (op := 0x22) rfl rfl rfl

theorem lhld (a16 : Word) : Statement (.lhld a16) := ofOpcode (op := 0x2A) rfl rfl rfl

theorem stax (rp : IndexPair) : Statement (.stax rp) := by
  intro _
  cases rp <;> rfl

theorem ldax (rp : IndexPair) : Statement (.ldax rp) := by
  intro _
  cases rp <;> rfl

theorem push (rp : StackPair) : Statement (.push rp) := by
  intro _
  cases rp <;> rfl

theorem pop (rp : StackPair) : Statement (.pop rp) := by
  intro _
  cases rp <;> rfl

theorem jmp (a16 : Word) : Statement (.jmp a16) := ofOpcode (op := 0xC3) rfl rfl rfl

theorem call (a16 : Word) : Statement (.call a16) := ofOpcode (op := 0xCD) rfl rfl rfl

theorem ret : Statement .ret := fun _ => rfl

theorem jnz (a16 : Word) : Statement (.jnz a16) := ofOpcode (op := 0xC2) rfl rfl rfl

theorem jz (a16 : Word) : Statement (.jz a16) := ofOpcode (op := 0xCA) rfl rfl rfl

theorem jnc (a16 : Word) : Statement (.jnc a16) := ofOpcode (op := 0xD2) rfl rfl rfl

theorem jc (a16 : Word) : Statement (.jc a16) := ofOpcode (op := 0xDA) rfl rfl rfl

theorem jpo (a16 : Word) : Statement (.jpo a16) := ofOpcode (op := 0xE2) rfl rfl rfl

theorem jpe (a16 : Word) : Statement (.jpe a16) := ofOpcode (op := 0xEA) rfl rfl rfl

theorem jp (a16 : Word) : Statement (.jp a16) := ofOpcode (op := 0xF2) rfl rfl rfl

theorem jm (a16 : Word) : Statement (.jm a16) := ofOpcode (op := 0xFA) rfl rfl rfl

theorem cnz (a16 : Word) : Statement (.cnz a16) := ofOpcode (op := 0xC4) rfl rfl rfl

theorem cz (a16 : Word) : Statement (.cz a16) := ofOpcode (op := 0xCC) rfl rfl rfl

theorem cnc (a16 : Word) : Statement (.cnc a16) := ofOpcode (op := 0xD4) rfl rfl rfl

theorem cc (a16 : Word) : Statement (.cc a16) := ofOpcode (op := 0xDC) rfl rfl rfl

theorem cpo (a16 : Word) : Statement (.cpo a16) := ofOpcode (op := 0xE4) rfl rfl rfl

theorem cpe (a16 : Word) : Statement (.cpe a16) := ofOpcode (op := 0xEC) rfl rfl rfl

theorem cp (a16 : Word) : Statement (.cp a16) := ofOpcode (op := 0xF4) rfl rfl rfl

theorem cm (a16 : Word) : Statement (.cm a16) := ofOpcode (op := 0xFC) rfl rfl rfl

theorem rnz : Statement .rnz := fun _ => rfl

theorem rz : Statement .rz := fun _ => rfl

theorem rnc : Statement .rnc := fun _ => rfl

theorem rc : Statement .rc := fun _ => rfl

theorem rpo : Statement .rpo := fun _ => rfl

theorem rpe : Statement .rpe := fun _ => rfl

theorem rp : Statement .rp := fun _ => rfl

theorem rm : Statement .rm := fun _ => rfl

theorem xchg : Statement .xchg := fun _ => rfl

theorem rrc : Statement .rrc := fun _ => rfl

theorem out (port : Byte) : Statement (.out port) := ofOpcode (op := 0xD3) rfl rfl rfl

theorem inp (port : Byte) : Statement (.inp port) := ofOpcode (op := 0xDB) rfl rfl rfl

theorem ei : Statement .ei := fun _ => rfl

theorem di : Statement .di := fun _ => rfl

theorem hlt : Statement .hlt := fun _ => rfl

theorem rlc : Statement .rlc := fun _ => rfl

theorem ral : Statement .ral := fun _ => rfl

theorem rar : Statement .rar := fun _ => rfl

theorem daa : Statement .daa := fun _ => rfl

theorem cma : Statement .cma := fun _ => rfl

theorem stc : Statement .stc := fun _ => rfl

theorem cmc : Statement .cmc := fun _ => rfl

theorem xthl : Statement .xthl := fun _ => rfl

theorem pchl : Statement .pchl := fun _ => rfl

theorem sphl : Statement .sphl := fun _ => rfl

theorem rst (n : Fin 8) : Statement (.rst n) := by
  revert n
  unfold Statement
  decide

theorem undefined (op : Byte) : Statement (.undefined op) := by
  intro h
  simp only [Instr.wf, undefinedOpcodeOk, decide_eq_true_eq, undefinedOpcodes, List.mem_cons, List.not_mem_nil, or_false] at h
  rcases h with h | h | h | h | h | h | h | h | h | h | h | h <;> subst h <;> rfl

end Sys2Proof.Laws.EncodeLength
end

