-- ==== Sys2Proof/Tests/Slice0.lean ====
section
/-! SUPPORT. The model's own tests. Expected results come from the spec: encodings from the "Encoding" line of each instruction's
rule, results from the vectors of 95_test_vectors.md, named in each docstring. At the end, for every obligation that has
hypotheses, a concrete state and operands that meet them. -/

namespace Sys2Proof.Machine

/-! ## Well-formedness: the two checks refuse what they are for -/

theorem test_wf_refuses_mov_m_m : (Instr.mov .m .m).wf = false := by decide
theorem test_wf_admits_mov_m_a : (Instr.mov .m .a).wf = true := by decide
theorem test_wf_refuses_undefined_of_nop : (Instr.undefined 0x00).wf = false := by decide
theorem test_wf_admits_undefined_of_dd : (Instr.undefined 0xDD).wf = true := by decide

/-! ## Decoding: for every constructor, a word written bit by bit from its rule -/

theorem test_decode_nop_load_move :
    decode [0b00000000] = .instr .nop [] ∧
    decode [0b00111110, 0x05] = .instr (.mvi .a 0x05) [] ∧
    decode [0b00110110, 0xAB] = .instr (.mvi .m 0xAB) [] ∧
    decode [0b00010001, 0x34, 0x12] = .instr (.lxi .de 0x1234) [] ∧
    decode [0b00110001, 0x00, 0x30] = .instr (.lxi .sp 0x3000) [] ∧
    decode [0b01000001] = .instr (.mov .b .c) [] ∧
    decode [0b01100110] = .instr (.mov .h .m) [] ∧
    decode [0b01110101] = .instr (.mov .m .l) [] := by
  decide

theorem test_decode_incdec_dad :
    decode [0b00001100] = .instr (.inr .c) [] ∧
    decode [0b00110101] = .instr (.dcr .m) [] ∧
    decode [0b00100011] = .instr (.inx .hl) [] ∧
    decode [0b00111011] = .instr (.dcx .sp) [] ∧
    decode [0b00001001] = .instr (.dad .bc) [] := by
  decide

theorem test_decode_alu :
    decode [0b10000000] = .instr (.add .b) [] ∧
    decode [0b10001001] = .instr (.adc .c) [] ∧
    decode [0b10010010] = .instr (.sub .d) [] ∧
    decode [0b10011011] = .instr (.sbb .e) [] ∧
    decode [0b10100100] = .instr (.ana .h) [] ∧
    decode [0b10101101] = .instr (.xra .l) [] ∧
    decode [0b10110110] = .instr (.ora .m) [] ∧
    decode [0b10111111] = .instr (.cmp .a) [] ∧
    decode [0b11000110, 0x42] = .instr (.adi 0x42) [] ∧
    decode [0b11001110, 0x42] = .instr (.aci 0x42) [] ∧
    decode [0b11010110, 0x42] = .instr (.sui 0x42) [] ∧
    decode [0b11011110, 0x42] = .instr (.sbi 0x42) [] ∧
    decode [0b11100110, 0x42] = .instr (.ani 0x42) [] ∧
    decode [0b11101110, 0x42] = .instr (.xri 0x42) [] ∧
    decode [0b11110110, 0x42] = .instr (.ori 0x42) [] ∧
    decode [0b11111110, 0x42] = .instr (.cpi 0x42) [] := by
  decide

theorem test_decode_memory_and_stack :
    decode [0b00110010, 0x34, 0x12] = .instr (.sta 0x1234) [] ∧
    decode [0b00111010, 0x34, 0x12] = .instr (.lda 0x1234) [] ∧
    decode [0b00100010, 0x34, 0x12] = .instr (.shld 0x1234) [] ∧
    decode [0b00101010, 0x34, 0x12] = .instr (.lhld 0x1234) [] ∧
    decode [0b00000010] = .instr (.stax .bc) [] ∧
    decode [0b00011010] = .instr (.ldax .de) [] ∧
    decode [0b11000101] = .instr (.push .bc) [] ∧
    decode [0b11110101] = .instr (.push .psw) [] ∧
    decode [0b11100001] = .instr (.pop .hl) [] ∧
    decode [0b11110001] = .instr (.pop .psw) [] := by
  decide

theorem test_decode_jumps :
    decode [0b11000011, 0x34, 0x12] = .instr (.jmp 0x1234) [] ∧
    decode [0b11000010, 0x34, 0x12] = .instr (.jnz 0x1234) [] ∧
    decode [0b11001010, 0x34, 0x12] = .instr (.jz 0x1234) [] ∧
    decode [0b11010010, 0x34, 0x12] = .instr (.jnc 0x1234) [] ∧
    decode [0b11011010, 0x34, 0x12] = .instr (.jc 0x1234) [] ∧
    decode [0b11100010, 0x34, 0x12] = .instr (.jpo 0x1234) [] ∧
    decode [0b11101010, 0x34, 0x12] = .instr (.jpe 0x1234) [] ∧
    decode [0b11110010, 0x34, 0x12] = .instr (.jp 0x1234) [] ∧
    decode [0b11111010, 0x34, 0x12] = .instr (.jm 0x1234) [] := by
  decide

theorem test_decode_calls :
    decode [0b11001101, 0x34, 0x12] = .instr (.call 0x1234) [] ∧
    decode [0b11000100, 0x34, 0x12] = .instr (.cnz 0x1234) [] ∧
    decode [0b11001100, 0x34, 0x12] = .instr (.cz 0x1234) [] ∧
    decode [0b11010100, 0x34, 0x12] = .instr (.cnc 0x1234) [] ∧
    decode [0b11011100, 0x34, 0x12] = .instr (.cc 0x1234) [] ∧
    decode [0b11100100, 0x34, 0x12] = .instr (.cpo 0x1234) [] ∧
    decode [0b11101100, 0x34, 0x12] = .instr (.cpe 0x1234) [] ∧
    decode [0b11110100, 0x34, 0x12] = .instr (.cp 0x1234) [] ∧
    decode [0b11111100, 0x34, 0x12] = .instr (.cm 0x1234) [] := by
  decide

theorem test_decode_returns :
    decode [0b11001001] = .instr .ret [] ∧
    decode [0b11000000] = .instr .rnz [] ∧
    decode [0b11001000] = .instr .rz [] ∧
    decode [0b11010000] = .instr .rnc [] ∧
    decode [0b11011000] = .instr .rc [] ∧
    decode [0b11100000] = .instr .rpo [] ∧
    decode [0b11101000] = .instr .rpe [] ∧
    decode [0b11110000] = .instr .rp [] ∧
    decode [0b11111000] = .instr .rm [] := by
  decide

theorem test_decode_exchange_rotate_io :
    decode [0b11101011] = .instr .xchg [] ∧
    decode [0b00001111] = .instr .rrc [] ∧
    decode [0b11010011, 0x10] = .instr (.out 0x10) [] ∧
    decode [0b11011011, 0x01] = .instr (.inp 0x01) [] ∧
    decode [0b11111011] = .instr .ei [] ∧
    decode [0b11110011] = .instr .di [] := by
  decide

theorem test_decode_unnamed :
    decode [0b01110110] = .instr .hlt [] ∧
    decode [0b00000111] = .instr .rlc [] ∧
    decode [0b00010111] = .instr .ral [] ∧
    decode [0b00011111] = .instr .rar [] ∧
    decode [0b00100111] = .instr .daa [] ∧
    decode [0b00101111] = .instr .cma [] ∧
    decode [0b00110111] = .instr .stc [] ∧
    decode [0b00111111] = .instr .cmc [] ∧
    decode [0b11100011] = .instr .xthl [] ∧
    decode [0b11101001] = .instr .pchl [] ∧
    decode [0b11111001] = .instr .sphl [] ∧
    decode [0b11101111] = .instr (.rst 5) [] ∧
    decode [0xCB, 0x34] = .instr (.undefined 0xCB) [0x34] := by
  decide

/-- The two ways a byte sequence begins no instruction. -/
theorem test_decode_rejects_short_sequences :
    decode [] = .rejected .noOpcode ∧
    decode [0x3E] = .rejected (.missingOperand 0x3E) ∧
    decode [0xC3, 0x00] = .rejected (.missingOperand 0xC3) := by
  decide

/-- The table's numbering of a word's bits: the second byte is bits 15..8; operand bytes the table gives no bits are zero. -/
theorem test_decodeTableWord :
    decodeTableWord 24 0x1234C3 = some (.jmp 0x1234) ∧ decodeTableWord 8 0xC3 = some (.jmp 0x0000) := by
  decide

/-! ## One step: the vectors of 95_test_vectors.md -/

/-- The file's start state: everything zero but PC and the bytes at it. -/
def start (pc : Word) (bytes : List Byte) : State := (State.created pc 0x0000).loadBytes pc bytes

/-- All seven registers zero. -/
def regs0 : Regs := (State.created 0x0000 0x0000).regs

/-- The five flags, in the order Z, S, P, CY, AC. -/
def flagsOf (z s p cy ac : Bool) : Flags := { z, s, p, cy, ac }

/-- The state after one step. -/
def after (s : State) : Option State :=
  match step s with
  | .next t => some t
  | .fault _ => none
  | .refused _ => none

/-- V2. -/
theorem test_nop_at_ffff_v2 :
    (after (start 0xFFFF [0x00])).map (fun t => (t.pc)) =
      some (0x0000) := by
  decide

/-- V3. -/
theorem test_mvi_b_ff_v3 :
    (after ({ start 0x0000 [0x06, 0xFF] with flags := flagsOf true false false false false })).map (fun t => (t.regs.b, t.pc)) =
      some (0xFF, 0x0002) := by
  decide

/-- V5. -/
theorem test_mvi_m_ab_v5 :
    (after ({ start 0x0000 [0x36, 0xAB] with regs := { regs0 with h := 0x20, l := 0x10 } })).map
      (fun t => (t.pc, t.readByte 0x2010)) =
      some (0x0002, 0xAB) := by
  decide

/-- V7. -/
theorem test_lxi_b_1234_v7 :
    (after (start 0x0000 [0x01, 0x34, 0x12])).map (fun t => (t.regs.b, t.regs.c, t.pc)) =
      some (0x12, 0x34, 0x0003) := by
  decide

/-- V255. -/
theorem test_lxi_b_at_ffff_v255 :
    (after (((start 0xFFFF [0x01]).writeByte 0x0000 0x34).writeByte 0x0001 0x12)).map (fun t => (t.regs.b, t.regs.c, t.pc)) =
      some (0x12, 0x34, 0x0002) := by
  decide

/-- V14. -/
theorem test_mov_h_m_v14 :
    (after (({ start 0x0000 [0x66] with regs := { regs0 with h := 0x20 } }).writeByte 0x2000 0x77)).map
      (fun t => (t.regs.h, t.pc)) =
      some (0x77, 0x0001) := by
  decide

/-- V17. -/
theorem test_mov_m_h_v17 :
    (after ({ start 0x0000 [0x74] with regs := { regs0 with h := 0x40, l := 0x01 } })).map
      (fun t => (t.pc, t.readByte 0x4001)) =
      some (0x0001, 0x40) := by
  decide

/-- V22. -/
theorem test_inr_e_v22 :
    (after ({ start 0x0000 [0x1C] with flags := flagsOf true true true true true })).map (fun t => (t.regs.e, t.flags, t.pc)) =
      some (0x01, flagsOf false false false true false, 0x0001) := by
  decide

/-- V23. -/
theorem test_inr_m_v23 :
    (after (({ start 0x0000 [0x34] with regs := { regs0 with h := 0x20 } }).writeByte 0x2000 0xFF)).map
      (fun t => (t.flags, t.pc, t.readByte 0x2000)) =
      some (flagsOf true false true false true, 0x0001, 0x00) := by
  decide

/-- V27. -/
theorem test_dcr_h_v27 :
    (after ({ start 0x0000 [0x25] with regs := { regs0 with h := 0x10 } })).map (fun t => (t.regs.h, t.flags, t.pc)) =
      some (0x0F, flagsOf false false true false false, 0x0001) := by
  decide

/-- V28. -/
theorem test_dcr_m_v28 :
    (after (({ start 0x0000 [0x35] with regs := { regs0 with h := 0x20 } }).writeByte 0x2000 0x10)).map
      (fun t => (t.flags, t.pc, t.readByte 0x2000)) =
      some (flagsOf false false true false false, 0x0001, 0x0F) := by
  decide

/-- S11a. -/
theorem test_inx_b_s11a :
    (after ({ start 0x0000 [0x03] with regs := { regs0 with b := 0x12, c := 0xFF }, flags := flagsOf true false false false false })).map
      (fun t => (t.regs.b, t.regs.c, t.pc)) =
      some (0x13, 0x00, 0x0001) := by
  decide

/-- V30. -/
theorem test_inx_sp_v30 :
    (after ({ start 0x0000 [0x33] with flags := flagsOf true false false false false, sp := 0xFFFF })).map
      (fun t => (t.sp, t.pc)) =
      some (0x0000, 0x0001) := by
  decide

/-- V32. -/
theorem test_dcx_b_v32 :
    (after ({ start 0x0000 [0x0B] with regs := { regs0 with b := 0x01 } })).map (fun t => (t.regs.b, t.regs.c, t.pc)) =
      some (0x00, 0xFF, 0x0001) := by
  decide

/-- V33. -/
theorem test_dcx_sp_v33 :
    (after (start 0x0000 [0x3B])).map (fun t => (t.sp, t.pc)) =
      some (0xFFFF, 0x0001) := by
  decide

/-- V34. -/
theorem test_dad_b_v34 :
    (after ({ start 0x0000 [0x09] with regs := { regs0 with c := 0x01, h := 0xFF, l := 0xFF } })).map
      (fun t => (t.regs.h, t.regs.l, t.flags, t.pc)) =
      some (0x00, 0x00, flagsOf false false false true false, 0x0001) := by
  decide

/-- V37. -/
theorem test_dad_sp_v37 :
    (after ({ start 0x0000 [0x39] with regs := { regs0 with l := 0x01 }, sp := 0xFFFF })).map
      (fun t => (t.regs.l, t.flags, t.pc)) =
      some (0x00, flagsOf false false false true false, 0x0001) := by
  decide

/-- V42. -/
theorem test_add_m_v42 :
    (after (({ start 0x0000 [0x86] with regs := { regs0 with a := 0x01, h := 0x30 } }).writeByte 0x3000 0x7F)).map
      (fun t => (t.regs.a, t.flags, t.pc)) =
      some (0x80, flagsOf false true false false true, 0x0001) := by
  decide

/-- V41. -/
theorem test_add_a_v41 :
    (after ({ start 0x0000 [0x87] with regs := { regs0 with a := 0x88 } })).map (fun t => (t.regs.a, t.flags, t.pc)) =
      some (0x10, flagsOf false false false true true, 0x0001) := by
  decide

/-- V47. -/
theorem test_adc_b_v47 :
    (after ({ start 0x0000 [0x88] with regs := { regs0 with a := 0x0F }, flags := flagsOf false false false true false })).map
      (fun t => (t.regs.a, t.flags, t.pc)) =
      some (0x10, flagsOf false false false false true, 0x0001) := by
  decide

/-- V46. -/
theorem test_adc_a_v46 :
    (after ({ start 0x0000 [0x8F] with regs := { regs0 with a := 0xFF }, flags := flagsOf false false false true false })).map
      (fun t => (t.flags, t.pc)) =
      some (flagsOf false true true true true, 0x0001) := by
  decide

/-- V49. -/
theorem test_sub_b_v49 :
    (after ({ start 0x0000 [0x90] with regs := { regs0 with a := 0x10, b := 0x01 } })).map
      (fun t => (t.regs.a, t.flags, t.pc)) =
      some (0x0F, flagsOf false false true false false, 0x0001) := by
  decide

/-- V50. -/
theorem test_sub_m_v50 :
    (after (({ start 0x0000 [0x96] with regs := { regs0 with a := 0x05, h := 0x30 } }).writeByte 0x3000 0x0A)).map
      (fun t => (t.regs.a, t.flags, t.pc)) =
      some (0xFB, flagsOf false true false true false, 0x0001) := by
  decide

/-- S3f. -/
theorem test_sbb_b_s3f :
    (after ({ start 0x0000 [0x98] with regs := { regs0 with b := 0xFF }, flags := flagsOf false false false true false })).map
      (fun t => (t.flags, t.pc)) =
      some (flagsOf true false true true false, 0x0001) := by
  decide

/-- V55. -/
theorem test_sbb_a_v55 :
    (after ({ start 0x0000 [0x9F] with regs := { regs0 with a := 0x37 } })).map (fun t => (t.regs.a, t.flags, t.pc)) =
      some (0x00, flagsOf true false true false true, 0x0001) := by
  decide

/-- V56. -/
theorem test_ana_c_v56 :
    (after ({ start 0x0000 [0xA1] with regs := { regs0 with a := 0xFC, c := 0x0F }, flags := flagsOf false false false true true })).map
      (fun t => (t.regs.a, t.flags, t.pc)) =
      some (0x0C, flagsOf false false true false false, 0x0001) := by
  decide

/-- V58. -/
theorem test_ana_m_v58 :
    (after (({ start 0x0000 [0xA6] with regs := { regs0 with a := 0xF0, h := 0x30 } }).writeByte 0x3000 0x8F)).map
      (fun t => (t.regs.a, t.flags, t.pc)) =
      some (0x80, flagsOf false true false false false, 0x0001) := by
  decide

/-- V59. -/
theorem test_xra_a_v59 :
    (after ({ start 0x0000 [0xAF] with regs := { regs0 with a := 0x5C }, flags := flagsOf false false false true true })).map
      (fun t => (t.regs.a, t.flags, t.pc)) =
      some (0x00, flagsOf true false true false false, 0x0001) := by
  decide

/-- V60. -/
theorem test_xra_b_v60 :
    (after ({ start 0x0000 [0xA8] with regs := { regs0 with a := 0x5C, b := 0x78 } })).map
      (fun t => (t.regs.a, t.flags, t.pc)) =
      some (0x24, flagsOf false false true false false, 0x0001) := by
  decide

/-- V61. -/
theorem test_ora_c_v61 :
    (after ({ start 0x0000 [0xB1] with regs := { regs0 with a := 0x33, c := 0x0F }, flags := flagsOf false false false true false })).map
      (fun t => (t.regs.a, t.flags, t.pc)) =
      some (0x3F, flagsOf false false true false false, 0x0001) := by
  decide

/-- V62. -/
theorem test_ora_m_v62 :
    (after (({ start 0x0000 [0xB6] with regs := { regs0 with h := 0x30 } }).writeByte 0x3000 0x80)).map
      (fun t => (t.regs.a, t.flags, t.pc)) =
      some (0x80, flagsOf false true false false false, 0x0001) := by
  decide

/-- V64. -/
theorem test_cmp_e_v64 :
    (after ({ start 0x0000 [0xBB] with regs := { regs0 with a := 0x02, e := 0x05 } })).map (fun t => (t.flags, t.pc)) =
      some (flagsOf false true false true false, 0x0001) := by
  decide

/-- V66. -/
theorem test_cmp_a_v66 :
    (after ({ start 0x0000 [0xBF] with regs := { regs0 with a := 0x99 }, flags := flagsOf false false false true false })).map
      (fun t => (t.flags, t.pc)) =
      some (flagsOf true false true false true, 0x0001) := by
  decide

/-- V68. -/
theorem test_adi_42_v68 :
    (after ({ start 0x0000 [0xC6, 0x42] with regs := { regs0 with a := 0x14 } })).map (fun t => (t.regs.a, t.flags, t.pc)) =
      some (0x56, flagsOf false false true false false, 0x0002) := by
  decide

/-- V69. -/
theorem test_aci_be_v69 :
    (after ({ start 0x0000 [0xCE, 0xBE] with regs := { regs0 with a := 0x56 } })).map (fun t => (t.regs.a, t.flags, t.pc)) =
      some (0x14, flagsOf false false true true true, 0x0002) := by
  decide

/-- V71. -/
theorem test_sui_01_v71 :
    (after (start 0x0000 [0xD6, 0x01])).map (fun t => (t.regs.a, t.flags, t.pc)) =
      some (0xFF, flagsOf false true true true false, 0x0002) := by
  decide

/-- V72. -/
theorem test_sbi_01_v72 :
    (after ({ start 0x0000 [0xDE, 0x01] with flags := flagsOf false false false true false })).map
      (fun t => (t.regs.a, t.flags, t.pc)) =
      some (0xFE, flagsOf false true false true false, 0x0002) := by
  decide

/-- V73. -/
theorem test_ani_0f_v73 :
    (after ({ start 0x0000 [0xE6, 0x0F] with regs := { regs0 with a := 0x3A }, flags := flagsOf false false false true true })).map
      (fun t => (t.regs.a, t.flags, t.pc)) =
      some (0x0A, flagsOf false false true false false, 0x0002) := by
  decide

/-- V74. -/
theorem test_xri_81_v74 :
    (after ({ start 0x0000 [0xEE, 0x81] with regs := { regs0 with a := 0x3B } })).map (fun t => (t.regs.a, t.flags, t.pc)) =
      some (0xBA, flagsOf false true false false false, 0x0002) := by
  decide

/-- V75. -/
theorem test_ori_0f_v75 :
    (after ({ start 0x0000 [0xF6, 0x0F] with regs := { regs0 with a := 0xB5 } })).map (fun t => (t.regs.a, t.flags, t.pc)) =
      some (0xBF, flagsOf false true false false false, 0x0002) := by
  decide

/-- V77. -/
theorem test_cpi_40_v77 :
    (after ({ start 0x0000 [0xFE, 0x40] with regs := { regs0 with a := 0x4A } })).map (fun t => (t.flags, t.pc)) =
      some (flagsOf false false true false true, 0x0002) := by
  decide

/-- V80. -/
theorem test_sta_2000_v80 :
    (after ({ start 0x0000 [0x32, 0x00, 0x20] with regs := { regs0 with a := 0x0F } })).map
      (fun t => (t.pc, t.readByte 0x2000)) =
      some (0x0003, 0x0F) := by
  decide

/-- V83. -/
theorem test_lda_0000_v83 :
    (after (start 0x0000 [0x3A, 0x00, 0x00])).map (fun t => (t.regs.a, t.pc)) =
      some (0x3A, 0x0003) := by
  decide

/-- V85. -/
theorem test_shld_ffff_v85 :
    (after ({ start 0x0100 [0x22, 0xFF, 0xFF] with regs := { regs0 with h := 0x12, l := 0x34 } })).map
      (fun t => (t.pc, t.readByte 0x0000, t.readByte 0xFFFF)) =
      some (0x0103, 0x12, 0x34) := by
  decide

/-- V86. -/
theorem test_lhld_025b_v86 :
    (after (((start 0x0000 [0x2A, 0x5B, 0x02]).writeByte 0x025B 0xFF).writeByte 0x025C 0x03)).map
      (fun t => (t.regs.h, t.regs.l, t.pc)) =
      some (0x03, 0xFF, 0x0003) := by
  decide

/-- V87. -/
theorem test_stax_b_v87 :
    (after ({ start 0x0000 [0x02] with regs := { regs0 with a := 0x42, b := 0x3F, c := 0x16 } })).map
      (fun t => (t.pc, t.readByte 0x3F16)) =
      some (0x0001, 0x42) := by
  decide

/-- V89. -/
theorem test_ldax_d_v89 :
    (after (({ start 0x0000 [0x1A] with regs := { regs0 with d := 0x93, e := 0x8B } }).writeByte 0x938B 0x7C)).map
      (fun t => (t.regs.a, t.pc)) =
      some (0x7C, 0x0001) := by
  decide

/-- V100. -/
theorem test_push_d_v100 :
    (after ({ start 0x0000 [0xD5] with regs := { regs0 with d := 0x8F, e := 0x9D }, sp := 0x3A2C })).map
      (fun t => (t.sp, t.pc, t.readByte 0x3A2A, t.readByte 0x3A2B)) =
      some (0x3A2A, 0x0001, 0x9D, 0x8F) := by
  decide

/-- V102. -/
theorem test_push_psw_v102 :
    (after ({ start 0x0000 [0xF5] with regs := { regs0 with a := 0x1F }, flags := flagsOf true false true true false, sp := 0x502A })).map
      (fun t => (t.sp, t.pc, t.readByte 0x5028, t.readByte 0x5029)) =
      some (0x5028, 0x0001, 0x47, 0x1F) := by
  decide

/-- V107. -/
theorem test_pop_psw_of_28_v107 :
    (after ((({ start 0x0000 [0xF1] with flags := flagsOf true true true true true, sp := 0x2C00 }).writeByte 0x2C00 0x28).writeByte 0x2C01 0x11)).map
      (fun t => (t.regs.a, t.flags, t.sp, t.pc)) =
      some (0x11, flagsOf false false false false false, 0x2C02, 0x0001) := by
  decide

/-- V110. -/
theorem test_pop_b_at_sp_ffff_v110 :
    (after ((({ start 0x0100 [0xC1] with sp := 0xFFFF }).writeByte 0x0000 0x22).writeByte 0xFFFF 0x11)).map
      (fun t => (t.regs.b, t.regs.c, t.sp, t.pc)) =
      some (0x22, 0x11, 0x0001, 0x0101) := by
  decide

/-- S8a. -/
theorem test_jmp_0000_s8a :
    (after (start 0x0000 [0xC3, 0x00, 0x00])).map (fun t => (t.pc)) =
      some (0x0000) := by
  decide

/-- V123. -/
theorem test_call_at_sp_0001_v123 :
    (after ({ start 0x0100 [0xCD, 0x00, 0x20] with sp := 0x0001 })).map
      (fun t => (t.sp, t.pc, t.readByte 0x0000, t.readByte 0xFFFF)) =
      some (0xFFFF, 0x2000, 0x01, 0x03) := by
  decide

/-- V124. -/
theorem test_call_whose_push_lands_on_its_own_operand_v124 :
    (after ({ start 0x0100 [0xCD, 0x00, 0x20] with sp := 0x0103 })).map
      (fun t => (t.sp, t.pc, t.readByte 0x0101, t.readByte 0x0102)) =
      some (0x0101, 0x2000, 0x03, 0x01) := by
  decide

/-- V125. -/
theorem test_ret_v125 :
    (after ((({ start 0x000F [0xC9] with sp := 0x2FFE }).writeByte 0x2FFE 0x09).writeByte 0x2FFF 0x00)).map
      (fun t => (t.sp, t.pc)) =
      some (0x3000, 0x0009) := by
  decide

/-- V126. -/
theorem test_ret_with_zero_stack_v126 :
    (after ({ start 0x0100 [0xC9] with sp := 0x4000 })).map (fun t => (t.sp, t.pc)) =
      some (0x4002, 0x0000) := by
  decide

/-- V130. -/
theorem test_jnz_taken_v130 :
    (after (start 0x0004 [0xC2, 0x08, 0x00])).map (fun t => (t.pc)) =
      some (0x0008) := by
  decide

/-- V132. -/
theorem test_jz_taken_v132 :
    (after ({ start 0x0004 [0xCA, 0x08, 0x00] with flags := flagsOf true false false false false })).map (fun t => (t.pc)) =
      some (0x0008) := by
  decide

/-- V134. -/
theorem test_jnc_taken_v134 :
    (after (start 0x0004 [0xD2, 0x08, 0x00])).map (fun t => (t.pc)) =
      some (0x0008) := by
  decide

/-- V136. -/
theorem test_jc_taken_v136 :
    (after ({ start 0x0004 [0xDA, 0x08, 0x00] with flags := flagsOf false false false true false })).map (fun t => (t.pc)) =
      some (0x0008) := by
  decide

/-- V138. -/
theorem test_jpo_taken_v138 :
    (after (start 0x0004 [0xE2, 0x08, 0x00])).map (fun t => (t.pc)) =
      some (0x0008) := by
  decide

/-- V140. -/
theorem test_jpe_taken_v140 :
    (after ({ start 0x0004 [0xEA, 0x08, 0x00] with flags := flagsOf false false true false false })).map (fun t => (t.pc)) =
      some (0x0008) := by
  decide

/-- V142. -/
theorem test_jp_taken_v142 :
    (after (start 0x0004 [0xF2, 0x08, 0x00])).map (fun t => (t.pc)) =
      some (0x0008) := by
  decide

/-- V144. -/
theorem test_jm_taken_v144 :
    (after ({ start 0x0004 [0xFA, 0x08, 0x00] with flags := flagsOf false true false false false })).map (fun t => (t.pc)) =
      some (0x0008) := by
  decide

/-- V146. -/
theorem test_cnz_taken_v146 :
    (after ({ start 0x0200 [0xC4, 0x00, 0x10] with sp := 0x4000 })).map
      (fun t => (t.sp, t.pc, t.readByte 0x3FFE, t.readByte 0x3FFF)) =
      some (0x3FFE, 0x1000, 0x03, 0x02) := by
  decide

/-- V148. -/
theorem test_cz_taken_v148 :
    (after ({ start 0x0200 [0xCC, 0x00, 0x10] with flags := flagsOf true false false false false, sp := 0x4000 })).map
      (fun t => (t.sp, t.pc, t.readByte 0x3FFE, t.readByte 0x3FFF)) =
      some (0x3FFE, 0x1000, 0x03, 0x02) := by
  decide

/-- V150. -/
theorem test_cnc_taken_v150 :
    (after ({ start 0x0200 [0xD4, 0x00, 0x10] with sp := 0x4000 })).map
      (fun t => (t.sp, t.pc, t.readByte 0x3FFE, t.readByte 0x3FFF)) =
      some (0x3FFE, 0x1000, 0x03, 0x02) := by
  decide

/-- V152. -/
theorem test_cc_taken_v152 :
    (after ({ start 0x0200 [0xDC, 0x00, 0x10] with flags := flagsOf false false false true false, sp := 0x4000 })).map
      (fun t => (t.sp, t.pc, t.readByte 0x3FFE, t.readByte 0x3FFF)) =
      some (0x3FFE, 0x1000, 0x03, 0x02) := by
  decide

/-- V154. -/
theorem test_cpo_taken_v154 :
    (after ({ start 0x0200 [0xE4, 0x00, 0x10] with sp := 0x4000 })).map
      (fun t => (t.sp, t.pc, t.readByte 0x3FFE, t.readByte 0x3FFF)) =
      some (0x3FFE, 0x1000, 0x03, 0x02) := by
  decide

/-- V156. -/
theorem test_cpe_taken_v156 :
    (after ({ start 0x0200 [0xEC, 0x00, 0x10] with flags := flagsOf false false true false false, sp := 0x4000 })).map
      (fun t => (t.sp, t.pc, t.readByte 0x3FFE, t.readByte 0x3FFF)) =
      some (0x3FFE, 0x1000, 0x03, 0x02) := by
  decide

/-- V158. -/
theorem test_cp_taken_v158 :
    (after ({ start 0x0200 [0xF4, 0x00, 0x10] with sp := 0x4000 })).map
      (fun t => (t.sp, t.pc, t.readByte 0x3FFE, t.readByte 0x3FFF)) =
      some (0x3FFE, 0x1000, 0x03, 0x02) := by
  decide

/-- V160. -/
theorem test_cm_taken_v160 :
    (after ({ start 0x0200 [0xFC, 0x00, 0x10] with flags := flagsOf false true false false false, sp := 0x4000 })).map
      (fun t => (t.sp, t.pc, t.readByte 0x3FFE, t.readByte 0x3FFF)) =
      some (0x3FFE, 0x1000, 0x03, 0x02) := by
  decide

/-- V162. -/
theorem test_rnz_taken_v162 :
    (after ((({ start 0x1005 [0xC0] with sp := 0x3FFE }).writeByte 0x3FFE 0x03).writeByte 0x3FFF 0x02)).map
      (fun t => (t.sp, t.pc)) =
      some (0x4000, 0x0203) := by
  decide

/-- V164. -/
theorem test_rz_taken_v164 :
    (after ((({ start 0x1005 [0xC8] with flags := flagsOf true false false false false, sp := 0x3FFE }).writeByte 0x3FFE 0x03).writeByte 0x3FFF 0x02)).map
      (fun t => (t.sp, t.pc)) =
      some (0x4000, 0x0203) := by
  decide

/-- V166. -/
theorem test_rnc_taken_v166 :
    (after ((({ start 0x1005 [0xD0] with sp := 0x3FFE }).writeByte 0x3FFE 0x03).writeByte 0x3FFF 0x02)).map
      (fun t => (t.sp, t.pc)) =
      some (0x4000, 0x0203) := by
  decide

/-- V168. -/
theorem test_rc_taken_v168 :
    (after ((({ start 0x1005 [0xD8] with flags := flagsOf false false false true false, sp := 0x3FFE }).writeByte 0x3FFE 0x03).writeByte 0x3FFF 0x02)).map
      (fun t => (t.sp, t.pc)) =
      some (0x4000, 0x0203) := by
  decide

/-- V170. -/
theorem test_rpo_taken_v170 :
    (after ((({ start 0x1005 [0xE0] with sp := 0x3FFE }).writeByte 0x3FFE 0x03).writeByte 0x3FFF 0x02)).map
      (fun t => (t.sp, t.pc)) =
      some (0x4000, 0x0203) := by
  decide

/-- V172. -/
theorem test_rpe_taken_v172 :
    (after ((({ start 0x1005 [0xE8] with flags := flagsOf false false true false false, sp := 0x3FFE }).writeByte 0x3FFE 0x03).writeByte 0x3FFF 0x02)).map
      (fun t => (t.sp, t.pc)) =
      some (0x4000, 0x0203) := by
  decide

/-- V174. -/
theorem test_rp_taken_v174 :
    (after ((({ start 0x1005 [0xF0] with sp := 0x3FFE }).writeByte 0x3FFE 0x03).writeByte 0x3FFF 0x02)).map
      (fun t => (t.sp, t.pc)) =
      some (0x4000, 0x0203) := by
  decide

/-- V176. -/
theorem test_rm_taken_v176 :
    (after ((({ start 0x1005 [0xF8] with flags := flagsOf false true false false false, sp := 0x3FFE }).writeByte 0x3FFE 0x03).writeByte 0x3FFF 0x02)).map
      (fun t => (t.sp, t.pc)) =
      some (0x4000, 0x0203) := by
  decide

/-- V180. -/
theorem test_xchg_v180 :
    (after ({ start 0x0000 [0xEB] with regs := { regs0 with d := 0x33, e := 0x55, l := 0xFF } })).map
      (fun t => (t.regs.d, t.regs.e, t.regs.h, t.regs.l, t.pc)) =
      some (0x00, 0xFF, 0x33, 0x55, 0x0001) := by
  decide

/-- S10a. -/
theorem test_rrc_s10a :
    (after ({ start 0x0000 [0x0F] with regs := { regs0 with a := 0x01 } })).map (fun t => (t.regs.a, t.flags, t.pc)) =
      some (0x80, flagsOf false false false true false, 0x0001) := by
  decide

/-- V183. -/
theorem test_rrc_v183 :
    (after ({ start 0x0000 [0x0F] with regs := { regs0 with a := 0x01 }, flags := flagsOf true false false false false })).map
      (fun t => (t.regs.a, t.flags, t.pc)) =
      some (0x80, flagsOf true false false true false, 0x0001) := by
  decide

/-- V190. -/
theorem test_out_10_v190 :
    (after ({ start 0x0100 [0xD3, 0x10] with regs := { regs0 with a := 0x55 } })).map (fun t => (t.pc)) =
      some (0x0102) := by
  decide

/-- V191. -/
theorem test_in_01_v191 :
    (after ({ start 0x0100 [0xDB, 0x01] with regs := { regs0 with a := 0x55 } })).map (fun t => (t.regs.a, t.pc)) =
      some (0x55, 0x0102) := by
  decide

/-- V192. -/
theorem test_ei_v192 :
    (after (start 0x0000 [0xFB])).map (fun t => (t.pc, t.inte)) =
      some (0x0001, true) := by
  decide

/-- V194. -/
theorem test_di_v194 :
    (after ({ start 0x0000 [0xF3] with inte := true })).map (fun t => (t.pc, t.inte)) =
      some (0x0001, false) := by
  decide

/-- V200. -/
theorem test_hlt_v200 :
    (after (start 0x000C [0x76])).map (fun t => (t.pc, t.halted)) =
      some (0x000D, true) := by
  decide

/-- V202. -/
theorem test_rlc_v202 :
    (after ({ start 0x0000 [0x07] with regs := { regs0 with a := 0xF2 } })).map (fun t => (t.regs.a, t.flags, t.pc)) =
      some (0xE5, flagsOf false false false true false, 0x0001) := by
  decide

/-- V203. -/
theorem test_rlc_v203 :
    (after ({ start 0x0000 [0x07] with regs := { regs0 with a := 0x40 }, flags := flagsOf false false false true false })).map
      (fun t => (t.regs.a, t.flags, t.pc)) =
      some (0x80, flagsOf false false false false false, 0x0001) := by
  decide

/-- V204. -/
theorem test_ral_v204 :
    (after ({ start 0x0000 [0x17] with regs := { regs0 with a := 0xB5 } })).map (fun t => (t.regs.a, t.flags, t.pc)) =
      some (0x6A, flagsOf false false false true false, 0x0001) := by
  decide

/-- V205. -/
theorem test_ral_v205 :
    (after ({ start 0x0000 [0x17] with flags := flagsOf false false false true false })).map
      (fun t => (t.regs.a, t.flags, t.pc)) =
      some (0x01, flagsOf false false false false false, 0x0001) := by
  decide

/-- V206. -/
theorem test_rar_v206 :
    (after ({ start 0x0000 [0x1F] with regs := { regs0 with a := 0x6A }, flags := flagsOf false false false true false })).map
      (fun t => (t.regs.a, t.flags, t.pc)) =
      some (0xB5, flagsOf false false false false false, 0x0001) := by
  decide

/-- V207. -/
theorem test_rar_v207 :
    (after ({ start 0x0000 [0x1F] with regs := { regs0 with a := 0x01 } })).map (fun t => (t.regs.a, t.flags, t.pc)) =
      some (0x00, flagsOf false false false true false, 0x0001) := by
  decide

/-- V208. -/
theorem test_daa_v208 :
    (after ({ start 0x0000 [0x27] with regs := { regs0 with a := 0x9B } })).map (fun t => (t.regs.a, t.flags, t.pc)) =
      some (0x01, flagsOf false false false true true, 0x0001) := by
  decide

/-- V212. -/
theorem test_daa_v212 :
    (after ({ start 0x0000 [0x27] with regs := { regs0 with a := 0x12 }, flags := flagsOf false false false false true })).map
      (fun t => (t.regs.a, t.flags, t.pc)) =
      some (0x18, flagsOf false false true false false, 0x0001) := by
  decide

/-- V216. -/
theorem test_cma_v216 :
    (after ({ start 0x0000 [0x2F] with regs := { regs0 with a := 0x51 }, flags := flagsOf true false false false false })).map
      (fun t => (t.regs.a, t.pc)) =
      some (0xAE, 0x0001) := by
  decide

/-- V217. -/
theorem test_stc_v217 :
    (after (start 0x0000 [0x37])).map (fun t => (t.flags, t.pc)) =
      some (flagsOf false false false true false, 0x0001) := by
  decide

/-- V219. -/
theorem test_cmc_v219 :
    (after ({ start 0x0000 [0x3F] with flags := flagsOf false false false true false })).map (fun t => (t.flags, t.pc)) =
      some (flagsOf false false false false false, 0x0001) := by
  decide

/-- V220. -/
theorem test_cmc_v220 :
    (after (start 0x0000 [0x3F])).map (fun t => (t.flags, t.pc)) =
      some (flagsOf false false false true false, 0x0001) := by
  decide

/-- V222. -/
theorem test_xthl_at_sp_ffff_v222 :
    (after ((({ start 0x0100 [0xE3] with regs := { regs0 with h := 0x12, l := 0x34 }, sp := 0xFFFF }).writeByte 0x0000 0xBB).writeByte 0xFFFF 0xAA)).map
      (fun t => (t.regs.h, t.regs.l, t.pc, t.readByte 0x0000, t.readByte 0xFFFF)) =
      some (0xBB, 0xAA, 0x0101, 0x12, 0x34) := by
  decide

/-- V223. -/
theorem test_pchl_v223 :
    (after ({ start 0x0000 [0xE9] with regs := { regs0 with h := 0x41, l := 0x3E } })).map (fun t => (t.pc)) =
      some (0x413E) := by
  decide

/-- V224. -/
theorem test_sphl_v224 :
    (after ({ start 0x0000 [0xF9] with regs := { regs0 with h := 0x50, l := 0x6C } })).map (fun t => (t.sp, t.pc)) =
      some (0x506C, 0x0001) := by
  decide

/-- V225. -/
theorem test_rst_5_v225 :
    (after ({ start 0x1234 [0xEF] with sp := 0x4000 })).map (fun t => (t.sp, t.pc, t.readByte 0x3FFE, t.readByte 0x3FFF)) =
      some (0x3FFE, 0x0028, 0x35, 0x12) := by
  decide

/-- V227. -/
theorem test_rst_7_v227 :
    (after ({ start 0xFFFF [0xFF] with sp := 0x4000 })).map (fun t => (t.sp, t.pc, t.readByte 0x3FFE, t.readByte 0x3FFF)) =
      some (0x3FFE, 0x0038, 0x00, 0x00) := by
  decide

/-- V249. -/
theorem test_undefined_dd_v249 :
    (after ({ start 0x0200 [0xDD, 0x34, 0x12] with regs := { regs0 with a := 0x11 }, sp := 0x4000 })).map
      (fun t => (t.pc, t.steps, t.faultRecord)) =
      some (0x0200, 0, some ⟨0xDD, 0x0200, 0⟩) := by
  decide

/-- V201, V252: a halted core's step changes nothing; a core with a fault record has no next state. -/
theorem test_terminal_states :
    after { start 0x0001 [0x00] with halted := true } = some { start 0x0001 [0x00] with halted := true } ∧
    after { start 0x0000 [0xDD] with faultRecord := some ⟨0xDD, 0x0000, 0⟩ } = none := by
  decide

/-- R68, D26: an image of two bytes fits at 0xFFFE and not at 0xFFFF. -/
theorem test_image_fits :
    Config.imageFits ⟨0, 0, 0xFFFE, [0x00, 0x76]⟩ = true ∧ Config.imageFits ⟨0, 0, 0xFFFF, [0x00, 0x76]⟩ = false := by
  decide

/-! ## Witnesses: for each obligation with hypotheses, a concrete case that meets all of them, one for each clause -/

theorem witness_DecodeOfEncodeIsTheInstruction :
    (Instr.mov .m .a).wf = true ∧ (Instr.undefined 0xFD).wf = true := by decide

theorem witness_EncodeOfDecodeIsTheBytes :
    decode [0xC3, 0xFF, 0xFF, 0x76] = .instr (.jmp 0xFFFF) [0x76] := by decide

/-- An opcode of each length, and one of no length. -/
theorem witness_OpcodeByteAloneFixesTheLength :
    lengthOf 0x00 = some 1 ∧ lengthOf 0x3E = some 2 ∧ lengthOf 0xC3 = some 3 ∧ lengthOf 0xDD = none := by decide

theorem witness_StepRunsTheDecodedInstruction :
    (start 0xFFFF [0x3E]).running ∧ decode (start 0xFFFF [0x3E]).codeBytes = .instr (.mvi .a 0x00) [0x00] := by decide

theorem witness_StepRunsTheEncodedInstruction :
    (start 0xFFFF [0x3E]).running ∧ (Instr.mvi .a 0x00).wf = true ∧
    (encode (.mvi .a 0x00)) = [0x3E, 0x00] ∧
    (start 0xFFFF [0x3E]).readByte (0xFFFF + 0) = 0x3E ∧ (start 0xFFFF [0x3E]).readByte (0xFFFF + 1) = 0x00 := by decide

/-- The taken and the untaken side of a conditional, a one-byte instruction at the top, a three-byte one below it. -/
theorem witness_PcAdvancesAndWraps :
    (Instr.jz 0x1234).transfers (start 0xFFFE [0xCA]) = false ∧
    Instr.nop.transfers (start 0xFFFF [0x00]) = false ∧ (encode .nop).length = 1 ∧
    (start 0xFFFF [0x00]).pc = 0xFFFF ∧ (start 0xFFFE [0xCA]).pc = 0xFFFE := by decide

theorem witness_HaltedStepChangesNothing : State.properFinal { start 0x0001 [0x76] with halted := true } := by decide

theorem witness_FaultedStateHasNoFurtherStep :
    (after (start 0x0000 [0xDD])).map (·.faultRecord) = some (some ⟨0xDD, 0x0000, 0⟩) := by decide

theorem witness_EveryDefinedInstructionSucceeds : ∀ op, Instr.hlt ≠ .undefined op := fun _ h => nomatch h

theorem witness_UndefinedOpcodeTakesTheException :
    (start 0xFFFF [0xFD]).running ∧ (start 0xFFFF [0xFD]).readByte 0xFFFF ∈ undefinedOpcodes := by decide

/-- One state of each side of the equivalence. -/
theorem witness_OnlyAnUndefinedOpcodeFaults :
    (start 0x0000 [0x08]).running ∧ (start 0x0000 [0x3E, 0x08]).running := by decide

/-- Reset meets the invariant and steps, and so does a state at one of the twelve bytes, which then holds a record. -/
theorem witness_StepKeepsTheInvariant :
    State.reset.inv ∧ (∃ t, step State.reset = .next t) ∧
    (start 0x0000 [0xDD]).inv ∧ ∃ t, step (start 0x0000 [0xDD]) = .next t ∧ t.faultRecord ≠ none := by
  refine ⟨⟨rfl, ?_⟩, ⟨_, rfl⟩, ⟨by decide, ?_⟩, _, rfl, ?_⟩
  · intro r h
    cases h
  · intro r h
    cases h
  · intro h
    cases h

/-- The longest image that fits, and one byte more. -/
theorem witness_BootLoadsTheImageIntoZeroedState :
    (boot ⟨0, 0, 0xFFFE, [0x00, 0x76]⟩ = .next ((start 0xFFFF [0x76]).jump 0x0000)) ∧
    [(0x00 : Byte), 0x76].length ≤ 65536 - (0xFFFE : Word).toNat ∧
    65536 - (0xFFFE : Word).toNat < [(0x00 : Byte), 0x76, 0x00].length := by
  refine ⟨rfl, ?_, ?_⟩ <;> decide

theorem witness_BytesChangeOnlyWhereAnInstructionStores :
    (∃ t, exec (.push .bc) (start 0x0000 []) = .next t) ∧
    (0x0000 : Word) ∉ (Instr.push .bc).storeAddrs (start 0x0000 []) := ⟨⟨_, rfl⟩, by decide⟩

theorem witness_RegistersChangeOnlyWhereListed :
    (∃ t, exec (.mvi .b 0xFF) State.reset = .next t) ∧ Operand8.c ≠ .m ∧ Operand8.c ∉ (Instr.mvi .b 0xFF).writtenRegs :=
  ⟨⟨_, rfl⟩, by decide⟩

theorem witness_FlagsChangeOnlyWhereThePolicySays :
    (∃ t, exec (.inr .a) State.reset = .next t) ∧ (Instr.inr .a).writesCy = false ∧
    (∃ t, exec (.dad .hl) State.reset = .next t) ∧ (Instr.dad .hl).writesZspAc = false :=
  ⟨⟨_, rfl⟩, rfl, ⟨_, rfl⟩, rfl⟩

/-- An untaken call, and XTHL, which only reads SP. -/
theorem witness_SpChangesOnlyWhereListed :
    (∃ t, exec (.cz 0x1234) State.reset = .next t) ∧ (Instr.cz 0x1234).writesSp State.reset = false ∧
    (∃ t, exec .xthl State.reset = .next t) ∧ Instr.xthl.writesSp State.reset = false :=
  ⟨⟨_, rfl⟩, rfl, ⟨_, rfl⟩, rfl⟩

theorem witness_ControlStateChangesOnlyByItsInstructions :
    (∃ t, exec .hlt State.reset = .next t) ∧ Instr.hlt ≠ .ei ∧ Instr.hlt ≠ .di ∧ ∀ op, Instr.hlt ≠ .undefined op :=
  ⟨⟨_, rfl⟩, by decide, by decide, fun _ h => nomatch h⟩

theorem witness_NothingReadsInteOrSteps :
    (∃ t, exec (.push .psw) State.reset = .next t) ∧ Instr.push .psw ≠ .ei ∧ Instr.push .psw ≠ .di ∧
    ∀ op, Instr.push .psw ≠ .undefined op :=
  ⟨⟨_, rfl⟩, by decide, by decide, fun _ h => nomatch h⟩

/-- A state on each side: one that runs, and one whose first step takes the exception. -/
theorem witness_RunsEndOnlyInAFault :
    State.reset.faultRecord = none ∧ State.reset.inv ∧
    (start 0x0000 [0xDD]).faultRecord = none ∧ (start 0x0000 [0xDD]).inv := by
  refine ⟨rfl, ⟨rfl, ?_⟩, rfl, by decide, ?_⟩ <;> (intro r h; cases h)

theorem witness_RegistersAreIndependentAndWrap :
    Operand8.a ≠ .m ∧ Operand8.b ≠ .m ∧ Operand8.c ≠ .m ∧ Operand8.d ≠ .m ∧ Operand8.e ≠ .m ∧ Operand8.h ≠ .m ∧
    Operand8.l ≠ .m := by decide

theorem witness_PairsAreViewsOfTheirRegisters :
    RegPair.bc ≠ .sp ∧ RegPair.de ≠ .sp ∧ RegPair.hl ≠ .sp := by decide

/-- SP at the bottom of memory: the byte at SP is none of those a push writes. -/
theorem witness_PushWritesHighThenLowBelowSp :
    (0x0000 : Word) ≠ (start 0x0000 []).sp - 1 ∧ (0x0000 : Word) ≠ (start 0x0000 []).sp - 2 := by decide

theorem witness_LxiWritesItsPair : RegPair.hl ≠ .sp := by decide

theorem witness_MovCopiesItsSource : (Instr.mov .m .b).wf = true ∧ (Instr.mov .b .m).wf = true := by decide

theorem witness_InxDcxStepThePairAndNoFlag : RegPair.bc ≠ .sp := by decide

/-- The clauses of PUSH and POP: every operand falls under exactly one. -/
theorem witness_PushStoresThePair : ∀ rp : StackPair, rp = .bc ∨ rp = .de ∨ rp = .hl ∨ rp = .psw := by
  intro rp
  cases rp <;> decide

theorem witness_PopLoadsThePair :
    ∀ rp : StackPair, (rp = .psw ∨ rp ≠ .psw) ∧ (rp = .bc ∨ rp = .de ∨ rp = .hl ∨ rp = .psw) := by
  intro rp
  cases rp <;> decide

/-- For every condition, a state in which it holds and one in which it does not. -/
theorem witness_ConditionalJumpsTestTheirFlag :
    (∃ s : State, s.flags.z = true ∧ s.flags.cy = true ∧ s.flags.p = true ∧ s.flags.s = true) ∧
    (∃ s : State, s.flags.z = false ∧ s.flags.cy = false ∧ s.flags.p = false ∧ s.flags.s = false) :=
  ⟨⟨{ State.reset with flags := flagsOf true true true true true }, rfl, rfl, rfl, rfl⟩, ⟨State.reset, rfl, rfl, rfl, rfl⟩⟩

theorem witness_ConditionalCallsTestTheirFlag :
    (∃ s : State, s.flags.z = true ∧ s.flags.cy = true ∧ s.flags.p = true ∧ s.flags.s = true ∧ s.sp = 0x0001) ∧
    (∃ s : State, s.flags.z = false ∧ s.flags.cy = false ∧ s.flags.p = false ∧ s.flags.s = false ∧ s.sp = 0x0000) :=
  ⟨⟨{ State.reset with flags := flagsOf true true true true true, sp := 0x0001 }, rfl, rfl, rfl, rfl, rfl⟩,
    ⟨State.reset, rfl, rfl, rfl, rfl, rfl⟩⟩

theorem witness_ConditionalReturnsTestTheirFlag :
    (∃ s : State, s.flags.z = true ∧ s.flags.cy = true ∧ s.flags.p = true ∧ s.flags.s = true ∧ s.sp = 0xFFFF) ∧
    (∃ s : State, s.flags.z = false ∧ s.flags.cy = false ∧ s.flags.p = false ∧ s.flags.s = false ∧ s.sp = 0x0000) :=
  ⟨⟨{ State.reset with flags := flagsOf true true true true true, sp := 0xFFFF }, rfl, rfl, rfl, rfl, rfl⟩,
    ⟨State.reset, rfl, rfl, rfl, rfl, rfl⟩⟩

/-- Each of the four cases of the correction, at the boundary of its digits. -/
theorem witness_DaaAppliesBothCorrections :
    daaCorrection 0x9A (flagsOf false false false false false) = 0x66 ∧
    daaCorrection 0x0A (flagsOf false false false false false) = 0x06 ∧
    daaCorrection 0xA0 (flagsOf false false false false false) = 0x60 ∧
    daaCorrection 0x99 (flagsOf false false false false false) = 0x00 := by decide

/-- The largest and the smallest packed decimal numbers. -/
theorem witness_DaaAfterAddGivesTheDecimalSum : isDecimal 0x99 ∧ isDecimal 0x00 := by
  constructor <;> (constructor <;> decide)

end Sys2Proof.Machine
end

section
/-! Parity as a count of bits, and the flags that describe a result (R13). -/

namespace Sys2Proof.Machine

/-- Counting up to `n + 1` adds the bit at `n`. -/
theorem countP_range_succ (p : Nat → Bool) (n : Nat) :
    (List.range (n + 1)).countP p = (List.range n).countP p + (p n).toNat := by
  rw [List.range_succ, List.countP_append, List.countP_singleton]
  cases p n <;> rfl

/-- The model's sum of eight bits is the number of places below 8 that hold a 1. -/
theorem countP_getLsbD_eq_onesCount (v : Byte) : (List.range 8).countP (fun k => v.getLsbD k) = onesCount v := by
  simp only [onesCount, countP_range_succ, List.range_zero, List.countP_nil, Nat.zero_add]

theorem onesCount_le (v : Byte) : onesCount v ≤ 8 := by
  rw [← countP_getLsbD_eq_onesCount]
  simpa using List.countP_le_length (l := List.range 8) (p := fun k => v.getLsbD k)

theorem parity8_iff (v : Byte) : parity8 v = true ↔ onesCount v % 2 = 0 := decide_eq_true_iff

/-- Flags whose Z, S and P are the ones `set_zsp` computes describe the result, whatever CY and AC are. -/
theorem Flags.describe_of_eq {f : Flags} {r : Byte} (hz : f.z = decide (r = 0)) (hs : f.s = r.getLsbD 7)
    (hp : f.p = parity8 r) : f.describe r := by
  refine ⟨?_, ?_, ?_⟩
  · rw [hz, decide_eq_true_iff, ← BitVec.toNat_inj]
    rfl
  · rw [hs, signBit_iff]
  · rw [hp, parity8_iff, countP_getLsbD_eq_onesCount]

theorem Flags.setZsp_describe (f : Flags) (v : Byte) : (f.setZsp v).describe v :=
  Flags.describe_of_eq (f.setZsp_z v) (f.setZsp_s v) (f.setZsp_p v)

/-- Settles O26: a byte has at most eight 1 bits, so an even count is one of R13's five. -/
theorem zspDescribeTheEightBitResult : Obligations.ZspDescribeTheEightBitResult := by
  intro f v
  refine ⟨?_, f.setZsp_describe v, f.setZsp_cy v, f.setZsp_ac v⟩
  have hle := onesCount_le v
  rw [parity8_iff, countP_getLsbD_eq_onesCount]
  simp only [List.mem_cons, List.not_mem_nil, or_false]
  omega

end Sys2Proof.Machine
end

section
/-! The register operands: what a write leaves to be read, and the increments modulo 256 (R20, R120, R122). -/

namespace Sys2Proof.Machine

/-- Among the registers a write is seen by its own alone; M is shut out, since a write to H or L moves its address. -/
theorem State.readOperand_writeOperand (s : State) {r r' : Operand8} (v : Byte) (hr : r ≠ .m) (hr' : r' ≠ .m) :
    (s.writeOperand r v).readOperand r' = if r' = r then v else s.readOperand r' := by
  cases r with
  | m => contradiction
  | b | c | d | e | h | l | a =>
    cases r' with
    | m => contradiction
    | b | c | d | e | h | l | a => rfl

/-- What is written to an operand is read from it; for M too, since a store moves neither H nor L. -/
@[simp] theorem State.readOperand_writeOperand_same (s : State) (r : Operand8) (v : Byte) :
    (s.writeOperand r v).readOperand r = v := by
  cases r with
  | m => exact s.readByte_writeByte_same s.hl v
  | b | c | d | e | h | l | a => rfl

@[simp] theorem State.putIncDec_readOperand (s : State) (r : Operand8) (x : Sum8) :
    (s.putIncDec r x).readOperand r = x.r := by
  simp [State.putIncDec]

/-- INR adds 1 modulo 256, in a register and in M. -/
theorem exec_inr_readOperand (r : Operand8) (s : State) :
    ∃ t, exec (.inr r) s = .next t ∧ (t.readOperand r).toNat = ((s.readOperand r).toNat + 1) % 256 := by
  refine ⟨_, rfl, ?_⟩
  rw [State.retire_readOperand, State.putIncDec_readOperand, State.advance_readOperand, add8_r_toNat]
  rfl

/-- DCR subtracts 1 modulo 256, in a register and in M. -/
theorem exec_dcr_readOperand (r : Operand8) (s : State) :
    ∃ t, exec (.dcr r) s = .next t ∧ (t.readOperand r).toNat = ((s.readOperand r).toNat + 255) % 256 := by
  refine ⟨_, rfl, ?_⟩
  have hone : (1 : Byte).toNat = 1 := rfl
  rw [State.retire_readOperand, State.putIncDec_readOperand, State.advance_readOperand, sub8_r_toNat, hone, Bool.toNat_false]
  omega

theorem State.created_readOperand (pc sp : Word) {r : Operand8} (hr : r ≠ .m) : (State.created pc sp).readOperand r = 0 := by
  cases r with
  | m => contradiction
  | b | c | d | e | h | l | a => rfl

/-- Settles O23: a register is a field of its own, and INR and DCR are the byte adder and subtractor. -/
theorem registersAreIndependentAndWrap : Obligations.RegistersAreIndependentAndWrap := by
  refine ⟨fun s r r' v hr hr' => s.readOperand_writeOperand v hr hr', fun s r _ => ?_,
    fun pc sp r hr => State.created_readOperand pc sp hr⟩
  exact ⟨Nat.le_of_lt_succ (s.readOperand r).isLt, exec_inr_readOperand r s, exec_dcr_readOperand r s⟩

end Sys2Proof.Machine
end

section
/-! The program counter: past an instruction that transfers no control, and from byte to byte of one (R34, R35). -/

namespace Sys2Proof.Machine

/-! ## Addresses after PC -/

/-- An address `k` places on is taken modulo 65,536. -/
theorem addr_add_toNat (a : Word) (k : Nat) : (a + BitVec.ofNat 16 k).toNat = (a.toNat + k) % 65536 := by
  simp [BitVec.toNat_add]

theorem State.codeByte_eq_readByte_mod (s : State) (k : Nat) :
    s.codeByte k = s.readByte (BitVec.ofNat 16 ((s.pc.toNat + k) % 65536)) := by
  rw [← addr_add_toNat, BitVec.ofNat_toNat, BitVec.setWidth_eq]
  rfl

theorem State.codeBytes_getElem? (s : State) {k : Nat} (hk : k < 3) : s.codeBytes[k]? = some (s.codeByte k) := by
  match k, hk with
  | 0, _ | 1, _ | 2, _ => rfl

/-! ## What leaves PC where it is -/

theorem State.writeStackPair_pc (s : State) (rp : StackPair) (v : Word) : (s.writeStackPair rp v).pc = s.pc := by
  cases rp <;> rfl

theorem State.jumpIf_pc_of_not {s : State} {cond : Cond} (a16 : Word) (h : s.flags.cond cond = false) :
    (s.jumpIf cond a16).pc = s.pc := by
  simp [State.jumpIf, h]

theorem State.callIf_pc_of_not {s : State} {cond : Cond} (a16 : Word) (h : s.flags.cond cond = false) :
    (s.callIf cond a16).pc = s.pc := by
  simp [State.callIf, h]

theorem State.returnIf_pc_of_not {s : State} {cond : Cond} (h : s.flags.cond cond = false) :
    (s.returnIf cond).pc = s.pc := by
  simp [State.returnIf, h]

/-! ## PC after an instruction -/

theorem finish_pc {s t : State} (h : finish s = .next t) : t.pc = s.pc := by
  rw [finish_eq_next h, State.retire_pc]

/-- R34: PC moves past the instruction's own bytes unless the instruction replaces it. -/
theorem exec_pc_of_not_transfers {i : Instr} {s t : State} (h : exec i s = .next t) (hdef : ∀ op, i ≠ .undefined op)
    (htr : i.transfers s = false) : t.pc = s.pc + BitVec.ofNat 16 (encode i).length := by
  cases i with
  | undefined op => exact absurd rfl (hdef op)
  | jmp | call | ret | pchl | rst => cases htr
  | jnz a16 | jz a16 | jnc a16 | jc a16 | jpo a16 | jpe a16 | jp a16 | jm a16 =>
    exact (finish_pc h).trans (State.jumpIf_pc_of_not a16 htr)
  | cnz a16 | cz a16 | cnc a16 | cc a16 | cpo a16 | cpe a16 | cp a16 | cm a16 =>
    exact (finish_pc h).trans (State.callIf_pc_of_not a16 htr)
  | rnz | rz | rnc | rc | rpo | rpe | rp | rm =>
    exact (finish_pc h).trans (State.returnIf_pc_of_not htr)
  | mvi dst | mov dst | inr dst | dcr dst => exact (finish_pc h).trans (State.writeOperand_pc _ dst _)
  | lxi rp | inx rp | dcx rp => exact (finish_pc h).trans (State.writePair_pc _ rp _)
  | pop rp => exact (finish_pc h).trans (State.writeStackPair_pc _ rp _)
  | _ => exact finish_pc h

/-- Settles O7: `exec_shape` gives the completed step with no new fault record, `exec_pc_of_not_transfers` its PC. -/
theorem pcAdvancesAndWraps : Obligations.PcAdvancesAndWraps := by
  refine ⟨fun i s htr hdef => ?_, fun s => ⟨fun h => ?_, fun h => ?_, fun k hk => ?_⟩⟩
  · obtain ⟨op, hi, _⟩ | ⟨_, u, hu, _, hfault⟩ := exec_shape i s
    · exact absurd hi (hdef op)
    · have hpc : u.retire.pc = s.pc + BitVec.ofNat 16 (encode i).length := exec_pc_of_not_transfers hu hdef htr
      refine ⟨u.retire, hu, ?_, hfault, fun htop hlen => ?_⟩
      · rw [hpc, addr_add_toNat]
      · rw [hpc, htop, hlen]
        rfl
  · simp [State.codeBytes, State.codeByte, h]
  · simp [State.codeBytes, State.codeByte, h]
  · rw [s.codeBytes_getElem? hk, s.codeByte_eq_readByte_mod]

end Sys2Proof.Machine
end

section
/-! The stack's push: which byte it leaves at which address (R65). -/

namespace Sys2Proof.Machine

/-- A byte read after a push: the low byte at SP - 2, the high byte at SP - 1, elsewhere what stood there. -/
theorem State.readByte_push16 (s : State) (v a : Word) :
    (s.push16 v).readByte a =
      if a = s.sp - 2 then loByte v else if a = s.sp - 1 then hiByte v else s.readByte a := by
  rw [State.push16_readByte_eq, State.readByte_writeByte, State.readByte_writeByte]

@[simp] theorem State.readByte_push16_low (s : State) (v : Word) : (s.push16 v).readByte (s.sp - 2) = loByte v := by
  rw [State.readByte_push16, if_pos rfl]

@[simp] theorem State.readByte_push16_high (s : State) (v : Word) : (s.push16 v).readByte (s.sp - 1) = hiByte v := by
  rw [State.readByte_push16, if_neg (sub_two_ne_sub_one s.sp).symm, if_pos rfl]

theorem State.readByte_push16_other (s : State) (v : Word) {a : Word} (h1 : a ≠ s.sp - 1) (h2 : a ≠ s.sp - 2) :
    (s.push16 v).readByte a = s.readByte a := by
  rw [State.readByte_push16, if_neg h2, if_neg h1]

/-- An address less a non-zero amount is another address, below 0 too, where it wraps. -/
theorem addr_ne_sub (a : Word) {k : Word} (hk : k ≠ 0) : a ≠ a - k := by
  bv_omega

theorem State.push16_pushesTo (s : State) (v : Word) : s.pushesTo (s.push16 v) v := by
  refine ⟨?_, ?_, s.push16_sp v⟩
  · rw [State.readByte_push16_high, hiByte_toNat]
  · rw [State.readByte_push16_low, loByte_toNat]

/-- Settles O27: the cells at SP - 1 and SP - 2 are distinct, and neither is the cell at SP. -/
theorem pushWritesHighThenLowBelowSp : Obligations.PushWritesHighThenLowBelowSp := by
  intro s v
  refine ⟨s.push16_pushesTo v, ?_, ?_, fun a h1 h2 => s.readByte_push16_other v h1 h2, rfl⟩
  · rw [State.push16_sp, State.readByte_push16_low, loByte_toNat]
  · exact s.readByte_push16_other v (addr_ne_sub s.sp (by decide)) (addr_ne_sub s.sp (by decide))

end Sys2Proof.Machine
end

section
/-! The exception: which instructions take it, and which complete (R250, R251). -/

namespace Sys2Proof.Machine

/-- Settles O10: of the two shapes an instruction's meaning can have, only an undefined opcode's has the exception; the other
is a completed step, and counting the step leaves the fault record as it was. -/
theorem everyDefinedInstructionSucceeds : Obligations.EveryDefinedInstructionSucceeds := by
  intro i s hdef
  obtain ⟨op, hi, _⟩ | ⟨_, u, hexec, _, hfault⟩ := exec_shape i s
  · exact absurd hi (hdef op)
  · exact ⟨u.retire, hexec, (State.retire_faultRecord u).trans hfault⟩

end Sys2Proof.Machine
end

section
/-! The decoder and the encoder agree: an opcode byte's form, the operand bytes it reads, and the byte its fields make up
(R70 to R84). -/

namespace Sys2Proof

open Sys2Proof.Machine (hiByte loByte joinBytes hiByte_joinBytes loByte_joinBytes joinBytes_hi_lo)

/-! ## What a form reads -/

/-- The form, given these operand bytes and no more, is the instruction. -/
def OpForm.reads : OpForm → List Byte → Instr → Prop
  | .op j, [], i => j = i
  | .opD8 mk, [b1], i => mk b1 = i
  | .opD16 mk, [b1, b2], i => mk (joinBytes b2 b1) = i
  | _, _, _ => False

theorem OpForm.reads_op {j i : Instr} {bs : List Byte} : (OpForm.op j).reads bs i ↔ bs = [] ∧ j = i := by
  match bs with
  | [] => simp [OpForm.reads]
  | _ :: _ => simp [OpForm.reads]

theorem OpForm.reads_opD8 {mk : Byte → Instr} {i : Instr} {bs : List Byte} :
    (OpForm.opD8 mk).reads bs i ↔ ∃ b1, bs = [b1] ∧ mk b1 = i := by
  match bs with
  | [] | _ :: _ :: _ => simp [OpForm.reads]
  | [b1] => simp [OpForm.reads]

theorem OpForm.reads_opD16 {mk : Word → Instr} {i : Instr} {bs : List Byte} :
    (OpForm.opD16 mk).reads bs i ↔ ∃ b1 b2, bs = [b1, b2] ∧ mk (joinBytes b2 b1) = i := by
  match bs with
  | [] | [_] | _ :: _ :: _ :: _ => simp [OpForm.reads]
  | [b1, b2] =>
    refine ⟨fun h => ⟨b1, b2, rfl, h⟩, ?_⟩
    rintro ⟨_, _, ⟨⟩, h⟩
    exact h

/-- Decoding, said once: the opcode byte, the operand bytes its form reads, and the rest. -/
theorem decode_eq_instr_iff {bytes rest : List Byte} {i : Instr} :
    decode bytes = .instr i rest ↔ ∃ op bs, bytes = op :: (bs ++ rest) ∧ (opForm op).reads bs i := by
  cases bytes with
  | nil => simp [decode]
  | cons op tail =>
    simp only [decode, List.cons.injEq]
    constructor
    · intro h
      refine ⟨op, ?_⟩
      cases hf : opForm op with
      | op j =>
        simp only [hf, Decoded.instr.injEq] at h
        exact ⟨[], ⟨rfl, h.2⟩, h.1⟩
      | opD8 mk =>
        match tail with
        | [] => simp [hf] at h
        | b1 :: _ =>
          simp only [hf, Decoded.instr.injEq] at h
          exact ⟨[b1], ⟨rfl, congrArg (b1 :: ·) h.2⟩, h.1⟩
      | opD16 mk =>
        match tail with
        | [] | [_] => simp [hf] at h
        | b1 :: b2 :: _ =>
          simp only [hf, Decoded.instr.injEq] at h
          exact ⟨[b1, b2], ⟨rfl, congrArg (b1 :: b2 :: ·) h.2⟩, h.1⟩
    · rintro ⟨op', bs, ⟨rfl, rfl⟩, hreads⟩
      cases hf : opForm op with
      | op j =>
        rw [hf, OpForm.reads_op] at hreads
        obtain ⟨rfl, rfl⟩ := hreads
        rfl
      | opD8 mk =>
        rw [hf, OpForm.reads_opD8] at hreads
        obtain ⟨b1, rfl, rfl⟩ := hreads
        rfl
      | opD16 mk =>
        rw [hf, OpForm.reads_opD16] at hreads
        obtain ⟨b1, b2, rfl, rfl⟩ := hreads
        rfl

/-! ## The form of an encoded instruction -/

/-- Whatever the form reads is well formed and encodes to `op` and the bytes read. -/
def OpForm.encodesTo (f : OpForm) (op : Byte) : Prop :=
  ∀ bs i, f.reads bs i → i.wf = true ∧ encode i = op :: bs

/-- The form of the instruction's opcode byte reads the instruction's operand bytes as the instruction, and nothing that encodes
otherwise. -/
def Instr.hasForm (i : Instr) : Prop :=
  (opForm (opcode i)).reads (operandBytes i) i ∧ (opForm (opcode i)).encodesTo (opcode i)

theorem Instr.hasForm_op {i : Instr} (hform : opForm (opcode i) = .op i) (hwf : i.wf = true) (hbytes : operandBytes i = []) :
    i.hasForm := by
  unfold Instr.hasForm OpForm.encodesTo
  simp only [hform, OpForm.reads_op]
  refine ⟨⟨hbytes, trivial⟩, ?_⟩
  rintro bs j ⟨rfl, rfl⟩
  exact ⟨hwf, congrArg (opcode i :: ·) hbytes⟩

theorem Instr.hasForm_opD8 {mk : Byte → Instr} (hform : opForm (opcode (mk 0)) = .opD8 mk)
    (hmk : ∀ b, (mk b).wf = true ∧ opcode (mk b) = opcode (mk 0) ∧ operandBytes (mk b) = [b]) (d8 : Byte) :
    (mk d8).hasForm := by
  obtain ⟨-, hop, hbytes⟩ := hmk d8
  unfold Instr.hasForm OpForm.encodesTo
  simp only [hop, hform, OpForm.reads_opD8]
  refine ⟨⟨d8, hbytes, rfl⟩, ?_⟩
  rintro bs j ⟨b1, rfl, rfl⟩
  obtain ⟨hwf, hop, hbytes⟩ := hmk b1
  exact ⟨hwf, by rw [encode, hop, hbytes]⟩

theorem Instr.hasForm_opD16 {mk : Word → Instr} (hform : opForm (opcode (mk 0)) = .opD16 mk)
    (hmk : ∀ w, (mk w).wf = true ∧ opcode (mk w) = opcode (mk 0) ∧ operandBytes (mk w) = operandBytes16 w) (v : Word) :
    (mk v).hasForm := by
  obtain ⟨-, hop, hbytes⟩ := hmk v
  unfold Instr.hasForm OpForm.encodesTo
  simp only [hop, hform, OpForm.reads_opD16]
  refine ⟨⟨loByte v, hiByte v, hbytes, congrArg mk (joinBytes_hi_lo v)⟩, ?_⟩
  rintro bs j ⟨b1, b2, rfl, rfl⟩
  obtain ⟨hwf, hop, hbytes⟩ := hmk (joinBytes b2 b1)
  refine ⟨hwf, ?_⟩
  rw [encode, hop, hbytes, operandBytes16, loByte_joinBytes, hiByte_joinBytes]

theorem opForm_of_mem_undefinedOpcodes {op : Byte} (h : op ∈ undefinedOpcodes) : opForm op = .op (.undefined op) := by
  simp only [undefinedOpcodes, List.mem_cons, List.not_mem_nil, or_false] at h
  obtain rfl | rfl | rfl | rfl | rfl | rfl | rfl | rfl | rfl | rfl | rfl | rfl := h <;> rfl

/-- Every instruction that has an encoding: the encoder's table and the decoder's are one. -/
theorem Instr.hasForm_of_wf {i : Instr} (h : i.wf = true) : i.hasForm := by
  cases i with
  | undefined op => exact Instr.hasForm_op (opForm_of_mem_undefinedOpcodes (of_decide_eq_true h)) h rfl
  | mov dst src =>
    cases dst <;> cases src
    case m.m => cases h
    all_goals exact Instr.hasForm_op rfl rfl rfl
  | mvi dst => exact Instr.hasForm_opD8 (mk := .mvi dst) (by cases dst <;> rfl) (fun _ => ⟨rfl, rfl, rfl⟩) _
  | adi | aci | sui | sbi | ani | xri | ori | cpi | out | inp =>
    exact Instr.hasForm_opD8 rfl (fun _ => ⟨rfl, rfl, rfl⟩) _
  | lxi rp => exact Instr.hasForm_opD16 (mk := .lxi rp) (by cases rp <;> rfl) (fun _ => ⟨rfl, rfl, rfl⟩) _
  | sta | lda | shld | lhld | jmp | call | jnz | jz | jnc | jc | jpo | jpe | jp | jm
  | cnz | cz | cnc | cc | cpo | cpe | cp | cm =>
    exact Instr.hasForm_opD16 rfl (fun _ => ⟨rfl, rfl, rfl⟩) _
  | inr x | dcr x | add x | adc x | sub x | sbb x | ana x | xra x | ora x | cmp x
  | inx x | dcx x | dad x | stax x | ldax x | push x | pop x =>
    cases x <;> exact Instr.hasForm_op rfl rfl rfl
  | rst n => exact Instr.hasForm_op (by match n with | 0 | 1 | 2 | 3 | 4 | 5 | 6 | 7 => rfl) rfl rfl
  | _ => exact Instr.hasForm_op rfl rfl rfl

/-- Every byte is the opcode of an instruction. -/
theorem exists_wf_opcode_eq (op : Byte) : ∃ i : Instr, i.wf = true ∧ opcode i = op := by
  have h : ∀ op : Byte, ((opForm op).fill 0 0).wf = true ∧ opcode ((opForm op).fill 0 0) = op := by decide
  exact ⟨_, h op⟩

theorem opForm_encodesTo (op : Byte) : (opForm op).encodesTo op := by
  obtain ⟨i, hwf, rfl⟩ := exists_wf_opcode_eq op
  exact (Instr.hasForm_of_wf hwf).2

end Sys2Proof

namespace Sys2Proof.Machine

/-- Settles O1: the form of the encoder's opcode byte reads the encoder's operand bytes. -/
theorem decodeOfEncodeIsTheInstruction : Obligations.DecodeOfEncodeIsTheInstruction := fun i _ hwf =>
  decode_eq_instr_iff.mpr ⟨opcode i, operandBytes i, rfl, (Instr.hasForm_of_wf hwf).1⟩

/-- Settles O2: every opcode byte is an instruction's, so its form reads nothing that encodes otherwise. -/
theorem encodeOfDecodeIsTheBytes : Obligations.EncodeOfDecodeIsTheBytes := by
  intro bytes i rest h
  obtain ⟨op, bs, rfl, hreads⟩ := decode_eq_instr_iff.mp h
  obtain ⟨hwf, hencode⟩ := opForm_encodesTo op bs i hreads
  exact ⟨hwf, by rw [hencode, List.cons_append]⟩

end Sys2Proof.Machine
end

section
/-! The bytes at PC: the decoder takes as many as the opcode byte says (R70), and the step runs what it reads (R80, R81). -/

namespace Sys2Proof.Machine

/-! ## Lengths -/

theorem decode_three (op b1 b2 : Byte) :
    ∃ i, decode [op, b1, b2] = .instr i ([op, b1, b2].drop (opForm op).length) := by
  simp only [decode]
  cases opForm op with
  | op i | opD8 mk | opD16 mk => exact ⟨_, rfl⟩

theorem decode_one_of_length {op : Byte} (h : 1 < (opForm op).length) : decode [op] = .rejected (.missingOperand op) := by
  cases hf : opForm op with
  | op i => simp [hf, OpForm.length] at h
  | opD8 mk | opD16 mk => simp only [decode, hf]

theorem decode_two_of_length {op : Byte} (h : 2 < (opForm op).length) (b1 : Byte) :
    decode [op, b1] = .rejected (.missingOperand op) := by
  cases hf : opForm op with
  | op i | opD8 mk => simp [hf, OpForm.length] at h
  | opD16 mk => simp only [decode, hf]

/-- Settles O3: the decoder computes on the four anchors of R87. -/
theorem anchorBytesDecodeAsTheSourceSays : Obligations.AnchorBytesDecodeAsTheSourceSays := by
  unfold Obligations.AnchorBytesDecodeAsTheSourceSays
  decide

/-- Settles O4: the two tables of lengths agree at each of the 256 opcode bytes, and `decode` takes as many bytes as its form is
long. -/
theorem opcodeByteAloneFixesTheLength : Obligations.OpcodeByteAloneFixesTheLength := by
  intro op two three n
  have hn : (opForm op).length = n := by
    revert op
    decide
  have hlen : lengthOf op = if op ∈ undefinedOpcodes then none else some n := by
    revert op
    decide
  rw [← hn] at hlen ⊢
  exact ⟨hlen, decode_three op, decode_one_of_length, decode_two_of_length⟩

/-! ## The instruction at PC -/

/-- What the decoder reads at PC is what the step fetches. -/
theorem State.eq_fetch_of_decode {s : State} {i : Instr} {rest : List Byte} (h : decode s.codeBytes = .instr i rest) :
    i = s.fetch := by
  obtain ⟨rest', hfetch⟩ := s.decode_codeBytes
  rw [h] at hfetch
  exact (Decoded.instr.inj hfetch).1

/-- The fetched instruction is well formed, and its opcode is the byte at PC. -/
theorem State.fetch_wf_and_opcode (s : State) : s.fetch.wf = true ∧ opcode s.fetch = s.readByte s.pc := by
  obtain ⟨rest, hdecode⟩ := s.decode_codeBytes
  obtain ⟨hwf, hbytes⟩ := encodeOfDecodeIsTheBytes _ _ _ hdecode
  have hop : opcode s.fetch = s.codeByte 0 := (List.cons.inj hbytes).1
  exact ⟨hwf, hop.trans (congrArg s.readByte (BitVec.add_zero s.pc))⟩

/-- Settles O5: the decoder and the fetch read the same instruction, well formed by O2. -/
theorem stepRunsTheDecodedInstruction : Obligations.StepRunsTheDecodedInstruction := by
  intro s hrun
  constructor
  · obtain ⟨rest, hdecode⟩ := s.decode_codeBytes
    exact ⟨s.fetch, rest, hdecode, s.fetch_wf_and_opcode.1⟩
  · intro i rest hdecode
    rw [step_running hrun, State.eq_fetch_of_decode hdecode]

theorem encode_length_le (i : Instr) : (encode i).length ≤ 3 := by
  cases i <;> simp [encode, operandBytes, operandBytes16]

/-- The bytes of an instruction that memory holds from PC on are the first ones the decoder is given. -/
theorem State.codeBytes_of_holds {s : State} {i : Instr}
    (h : ∀ k v, (encode i)[k]? = some v → s.readByte (s.pc + BitVec.ofNat 16 k) = v) :
    encode i = s.codeBytes.take (encode i).length := by
  have hlen := encode_length_le i
  apply List.ext_getElem?
  intro k
  by_cases hk : k < (encode i).length
  · rw [List.getElem?_take_of_lt hk, s.codeBytes_getElem? (by omega), State.codeByte, h k _ (List.getElem?_eq_getElem hk),
      List.getElem?_eq_getElem hk]
  · rw [List.getElem?_eq_none (by omega), List.getElem?_eq_none (by rw [List.length_take]; omega)]

/-- Settles O6: the bytes in memory decode to the instruction by O1, so it is the one that O5's step runs. -/
theorem stepRunsTheEncodedInstruction : Obligations.StepRunsTheEncodedInstruction := by
  intro s i hrun hwf hmem
  have hdecode : decode s.codeBytes = .instr i (s.codeBytes.drop (encode i).length) := by
    have hbytes := List.take_append_drop (encode i).length s.codeBytes
    rw [← State.codeBytes_of_holds hmem] at hbytes
    exact (congrArg decode hbytes).symm.trans (decodeOfEncodeIsTheInstruction i _ hwf)
  exact (stepRunsTheDecodedInstruction s hrun).2 i _ hdecode

/-! ## The undefined opcodes -/

/-- The fetched instruction is undefined exactly when the byte at PC is one of the twelve, and then it is that byte's. -/
theorem State.fetch_eq_undefined_iff (s : State) (op : Byte) :
    s.fetch = .undefined op ↔ op = s.readByte s.pc ∧ op ∈ undefinedOpcodes := by
  obtain ⟨hwf, hop⟩ := s.fetch_wf_and_opcode
  constructor
  · intro h
    rw [h] at hwf hop
    exact ⟨hop, of_decide_eq_true hwf⟩
  · rintro ⟨rfl, hmem⟩
    have hpc : s.codeByte 0 = s.readByte s.pc := congrArg s.readByte (BitVec.add_zero s.pc)
    rw [State.fetch, hpc, opForm_of_mem_undefinedOpcodes hmem]
    rfl

/-- A running core's step at one of the twelve bytes takes the exception. -/
theorem step_undefined {s : State} (hrun : s.running) (h : s.readByte s.pc ∈ undefinedOpcodes) :
    step s = .next (s.raiseUnimplementedOpcode (s.readByte s.pc)) := by
  rw [step_running hrun, (s.fetch_eq_undefined_iff _).mpr ⟨rfl, h⟩]
  rfl

/-- A running core's step at any other byte completes an instruction and leaves the fault record. -/
theorem step_defined {s : State} (hrun : s.running) (h : s.readByte s.pc ∉ undefinedOpcodes) :
    ∃ t, exec s.fetch s = .next t ∧ step s = .next t ∧ t.faultRecord = none := by
  have hdef : ∀ op, s.fetch ≠ .undefined op := by
    intro op hop
    obtain ⟨rfl, hmem⟩ := (s.fetch_eq_undefined_iff op).mp hop
    exact h hmem
  obtain ⟨t, hexec, hfault⟩ := everyDefinedInstructionSucceeds s.fetch s hdef
  exact ⟨t, hexec, (step_running hrun).trans hexec, hfault.trans hrun.1⟩

/-- Settles O11: the exception's entry is the meaning of `undefined`, which is what such a byte fetches. -/
theorem undefinedOpcodeTakesTheException : Obligations.UndefinedOpcodeTakesTheException := fun _ =>
  ⟨fun _ => ⟨_, rfl, rfl⟩, fun hrun hmem => ⟨_, step_undefined hrun hmem, rfl, rfl⟩⟩

/-- Settles O12: a step at one of the twelve bytes writes the record, a step at any other leaves it. -/
theorem onlyAnUndefinedOpcodeFaults : Obligations.OnlyAnUndefinedOpcodeFaults := by
  intro s hrun
  by_cases hmem : s.readByte s.pc ∈ undefinedOpcodes
  · exact ⟨_, step_undefined hrun hmem, iff_of_true (Option.some_ne_none _) hmem⟩
  · obtain ⟨t, _, hstep, hfault⟩ := step_defined hrun hmem
    exact ⟨t, hstep, iff_of_false (not_not_intro hfault) hmem⟩

/-! ## The states with no further instruction -/

/-- Settles O8, by induction on the number of steps. -/
theorem haltedStepChangesNothing : Obligations.HaltedStepChangesNothing := by
  intro s hfinal
  obtain ⟨hhalt, hfault⟩ := hfinal
  have hstep : step s = .next s := step_halted hfault hhalt
  refine ⟨hstep, by simp [State.status, hfault, hhalt], fun n t hreach => ?_⟩
  induction n with
  | zero => exact hreach.symm
  | succ n ih =>
    obtain ⟨s', hs', hreach⟩ := hreach
    rw [hstep] at hs'
    cases hs'
    exact ih hreach

/-- Settles O9: the step answers the record's fault, so no run of one step or more begins there. -/
theorem faultedStateHasNoFurtherStep : Obligations.FaultedStateHasNoFurtherStep := by
  intro s r hfault
  have hstep : step s = .fault r.toFault := step_faulted hfault
  refine ⟨hstep, by simp [State.status, hfault], fun n t hreach => ?_⟩
  cases n with
  | zero => exact ⟨rfl, hreach.symm⟩
  | succ n =>
    obtain ⟨s', hs', _⟩ := hreach
    rw [hstep] at hs'
    cases hs'

end Sys2Proof.Machine
end

section
/-! What every instruction leaves unchanged: the frames of R52, R24, R32, R37 and of the control state, and the canonical form of
memory. One rule per shared operation, then one case analysis over the instructions per field. -/

namespace Sys2Proof.Machine

/-! ## Rules: conditional transfers -/

section
variable {α : Type} {s : State} {a16 : Word} (f : State → α) (cond : Cond)

/-- What a taken jump keeps, a conditional jump keeps. -/
theorem State.jumpIf_keeps (h : f (s.jump a16) = f s) : f (s.jumpIf cond a16) = f s := by
  unfold State.jumpIf
  split
  · exact h
  · rfl

/-- What a taken call keeps, a conditional call keeps. -/
theorem State.callIf_keeps (h : f (s.callTo a16) = f s) : f (s.callIf cond a16) = f s := by
  unfold State.callIf
  split
  · exact h
  · rfl

/-- What a taken return keeps, a conditional return keeps. -/
theorem State.returnIf_keeps (h : f s.returnFrom = f s) : f (s.returnIf cond) = f s := by
  unfold State.returnIf
  split
  · exact h
  · rfl

end

/-! ## Rules: bytes of memory -/

theorem State.readByte_writeOperand_other {s : State} {dst : Operand8} {a : Word} (v : Byte) (h : a ∉ dst.storeAddrs s) :
    (s.writeOperand dst v).readByte a = s.readByte a := by
  cases dst with
  | m => exact s.readByte_writeByte_other v fun e => h (e ▸ List.mem_singleton_self _)
  | b | c | d | e | h | l | a => rfl

theorem State.readByte_writeWord_other {s : State} {a b : Word} (v : Word) (h : b ∉ [a, a + 1]) :
    (s.writeWord a v).readByte b = s.readByte b := by
  obtain ⟨ha, ha1⟩ : b ≠ a ∧ b ≠ a + 1 := by simpa using h
  rw [State.readByte_writeWord, if_neg ha1, if_neg ha]

theorem State.readByte_push16_of_not_mem {s : State} {a : Word} (v : Word) (h : a ∉ s.pushAddrs) :
    (s.push16 v).readByte a = s.readByte a := by
  obtain ⟨h1, h2⟩ : a ≠ s.sp - 1 ∧ a ≠ s.sp - 2 := by simpa [State.pushAddrs] using h
  exact s.readByte_push16_other v h1 h2

theorem State.readByte_callIf_of_not_mem {s : State} {a : Word} {cond : Cond} (a16 : Word) (h : a ∉ s.callAddrs cond) :
    (s.callIf cond a16).readByte a = s.readByte a := by
  unfold State.callIf
  split
  case isTrue hc => exact State.readByte_push16_of_not_mem s.pc (by simpa [State.callAddrs, hc] using h)
  case isFalse => rfl

@[simp] theorem State.writePair_readByte (s : State) (rp : RegPair) (v a : Word) :
    (s.writePair rp v).readByte a = s.readByte a := by
  cases rp <;> rfl

@[simp] theorem State.writeStackPair_readByte (s : State) (rp : StackPair) (v a : Word) :
    (s.writeStackPair rp v).readByte a = s.readByte a := by
  cases rp <;> rfl

/-! ## Rules: registers -/

/-- A register is read from the register file alone. -/
theorem State.readOperand_of_regs_eq {s t : State} {r : Operand8} (hr : r ≠ .m) (h : t.regs = s.regs) :
    t.readOperand r = s.readOperand r := by
  cases r with
  | m => contradiction
  | b | c | d | e | h | l | a => simp only [State.readOperand, h]

theorem State.readOperand_writeOperand_other {s : State} {r dst : Operand8} (v : Byte) (hr : r ≠ .m) (h : r ∉ [dst]) :
    (s.writeOperand dst v).readOperand r = s.readOperand r := by
  cases dst with
  | m => exact State.readOperand_of_regs_eq hr rfl
  | b | c | d | e | h | l | a =>
    rw [State.readOperand_writeOperand s v (by decide) hr, if_neg (by simpa using h)]

theorem State.readOperand_writeOperand_two {s : State} {r x y : Operand8} (u v : Byte) (hr : r ≠ .m) (h : r ∉ [x, y]) :
    ((s.writeOperand x u).writeOperand y v).readOperand r = s.readOperand r := by
  obtain ⟨hx, hy⟩ : r ∉ [x] ∧ r ∉ [y] := by simpa using h
  rw [State.readOperand_writeOperand_other v hr hy, State.readOperand_writeOperand_other u hr hx]

theorem State.readOperand_writePair_other {s : State} {r : Operand8} {rp : RegPair} (v : Word) (hr : r ≠ .m)
    (h : r ∉ rp.halves) : (s.writePair rp v).readOperand r = s.readOperand r := by
  cases rp with
  | bc | de | hl => exact State.readOperand_writeOperand_two (hiByte v) (loByte v) hr h
  | sp => exact State.readOperand_of_regs_eq hr rfl

theorem State.readOperand_writeStackPair_other {s : State} {r : Operand8} {rp : StackPair} (v : Word) (hr : r ≠ .m)
    (h : r ∉ rp.halves) : (s.writeStackPair rp v).readOperand r = s.readOperand r := by
  cases rp with
  | bc | de | hl => exact State.readOperand_writePair_other v hr h
  | psw => exact (State.setFlags_readOperand _ _ r).trans (State.readOperand_writeOperand_other _ hr h)

/-! ## Rules: the other fields -/

@[simp] theorem State.writeStackPair_sp (s : State) (rp : StackPair) (v : Word) : (s.writeStackPair rp v).sp = s.sp := by
  cases rp <;> rfl

@[simp] theorem State.writeStackPair_mem (s : State) (rp : StackPair) (v : Word) : (s.writeStackPair rp v).mem = s.mem := by
  cases rp <;> rfl

theorem State.writeStackPair_flags (s : State) {rp : StackPair} (h : rp ≠ .psw) (v : Word) :
    (s.writeStackPair rp v).flags = s.flags := by
  cases rp with
  | psw => contradiction
  | bc | de | hl => rfl

@[simp] theorem State.writeStackPair_inte (s : State) (rp : StackPair) (v : Word) :
    (s.writeStackPair rp v).inte = s.inte := by
  cases rp <;> rfl

@[simp] theorem State.writeStackPair_halted (s : State) (rp : StackPair) (v : Word) :
    (s.writeStackPair rp v).halted = s.halted := by
  cases rp <;> rfl

theorem State.callIf_sp_of_not {s : State} {cond : Cond} (a16 : Word) (h : s.flags.cond cond = false) :
    (s.callIf cond a16).sp = s.sp := by
  simp [State.callIf, h]

theorem State.returnIf_sp_of_not {s : State} {cond : Cond} (h : s.flags.cond cond = false) :
    (s.returnIf cond).sp = s.sp := by
  simp [State.returnIf, h]

theorem State.writeOperand_wf (s : State) (h : s.mem.wf = true) (dst : Operand8) (v : Byte) :
    (s.writeOperand dst v).mem.wf = true := by
  cases dst with
  | m => exact s.writeByte_wf h s.hl v
  | b | c | d | e | h | l | a => exact h

theorem State.callIf_wf (s : State) (h : s.mem.wf = true) (cond : Cond) (a16 : Word) :
    (s.callIf cond a16).mem.wf = true := by
  unfold State.callIf
  split
  · exact s.push16_wf h s.pc
  · exact h

/-! ## The frames, field by field -/

/-- Settles O16: each store is to the addresses of its row of R52. -/
theorem bytesChangeOnlyWhereAnInstructionStores : Obligations.BytesChangeOnlyWhereAnInstructionStores := by
  intro i s t a h ha
  cases i
  case undefined => cases h; rfl
  all_goals obtain rfl := finish_eq_next h
  case mvi | mov | inr | dcr => exact State.readByte_writeOperand_other _ ha
  case sta | stax => exact State.readByte_writeByte_other _ _ (List.ne_of_not_mem_cons ha)
  case shld | xthl => exact State.readByte_writeWord_other _ ha
  case push | call | rst => exact State.readByte_push16_of_not_mem _ ha
  case cnz | cz | cnc | cc | cpo | cpe | cp | cm => exact State.readByte_callIf_of_not_mem _ ha
  case lxi | inx | dcx => exact State.writePair_readByte _ _ _ a
  case pop => exact State.writeStackPair_readByte _ _ _ a
  case jnz | jz | jnc | jc | jpo | jpe | jp | jm => exact State.jumpIf_keeps (·.readByte a) _ rfl
  case rnz | rz | rnc | rc | rpo | rpe | rp | rm => exact State.returnIf_keeps (·.readByte a) _ rfl
  all_goals rfl

/-- Settles O17: a write to A, to an operand or to a pair reaches the registers of its row of R24 alone. -/
theorem registersChangeOnlyWhereListed : Obligations.RegistersChangeOnlyWhereListed := by
  intro i s t r h hr hmem
  cases i
  case undefined => cases h; rfl
  all_goals obtain rfl := finish_eq_next h
  case mvi | mov | inr | dcr =>
    exact State.readOperand_writeOperand_other _ hr hmem
  case add | adc | sub | sbb | ana | xra | ora | adi | aci | sui | sbi | ani | xri | ori
      | lda | ldax | rrc | rlc | ral | rar | daa | cma =>
    exact State.readOperand_writeOperand_other (s := s) (dst := .a) _ hr hmem
  case lxi | inx | dcx =>
    exact State.readOperand_writePair_other _ hr hmem
  case dad | lhld => exact State.readOperand_writePair_other (s := s) (rp := .hl) _ hr hmem
  case xthl =>
    rw [State.retire_readOperand]
    exact (State.readOperand_writePair_other (rp := .hl) _ hr hmem).trans (State.readOperand_of_regs_eq hr rfl)
  case pop =>
    exact State.readOperand_writeStackPair_other _ hr hmem
  case xchg =>
    obtain ⟨hhl, hde⟩ : r ∉ RegPair.hl.halves ∧ r ∉ RegPair.de.halves := not_or.mp fun e => hmem (List.mem_append.mpr e)
    exact (State.readOperand_writePair_other _ hr hde).trans (State.readOperand_writePair_other _ hr hhl)
  case jnz | jz | jnc | jc | jpo | jpe | jp | jm =>
    exact State.readOperand_of_regs_eq hr (State.jumpIf_keeps State.regs _ rfl)
  case cnz | cz | cnc | cc | cpo | cpe | cp | cm =>
    exact State.readOperand_of_regs_eq hr (State.callIf_keeps State.regs _ rfl)
  case rnz | rz | rnc | rc | rpo | rpe | rp | rm =>
    exact State.readOperand_of_regs_eq hr (State.returnIf_keeps State.regs _ rfl)
  all_goals exact State.readOperand_of_regs_eq hr rfl

/-- Settles O19: besides the instructions of R37, none has SP among the fields it writes. -/
theorem spChangesOnlyWhereListed : Obligations.SpChangesOnlyWhereListed := by
  intro i s t h hsp
  cases i
  case undefined => cases h; rfl
  all_goals obtain rfl := finish_eq_next h
  case push | call | rst | pop | ret | sphl => cases hsp
  case lxi | inx | dcx => exact State.writePair_sp _ (of_decide_eq_false hsp) _
  case mvi | mov | inr | dcr => exact State.writeOperand_sp _ _ _
  case jnz | jz | jnc | jc | jpo | jpe | jp | jm => exact State.jumpIf_keeps State.sp _ rfl
  case cnz | cz | cnc | cc | cpo | cpe | cp | cm => exact State.callIf_sp_of_not _ hsp
  case rnz | rz | rnc | rc | rpo | rpe | rp | rm => exact State.returnIf_sp_of_not hsp
  all_goals rfl

/-- An instruction outside every row of R32 leaves all five flags. -/
theorem exec_flags_of_not_writes {i : Instr} {s t : State} (h : exec i s = .next t) (hzsp : i.writesZspAc = false)
    (hcy : i.writesCy = false) : t.flags = s.flags := by
  cases i
  case undefined => cases h; rfl
  all_goals obtain rfl := finish_eq_next h
  case inr | dcr | daa | add | adc | sub | sbb | ana | xra | ora | cmp | adi | aci | sui | sbi | ani | xri | ori | cpi =>
    cases hzsp
  case dad | rrc | rlc | ral | rar | stc | cmc => cases hcy
  case pop => exact State.writeStackPair_flags _ (of_decide_eq_false hzsp) _
  case mvi | mov => exact State.writeOperand_flags _ _ _
  case lxi | inx | dcx => exact State.writePair_flags _ _ _
  case jnz | jz | jnc | jc | jpo | jpe | jp | jm => exact State.jumpIf_keeps State.flags _ rfl
  case cnz | cz | cnc | cc | cpo | cpe | cp | cm => exact State.callIf_keeps State.flags _ rfl
  case rnz | rz | rnc | rc | rpo | rpe | rp | rm => exact State.returnIf_keeps State.flags _ rfl
  all_goals rfl

/-- The rows of R32 that write CY alone. -/
theorem exec_flags_of_writes_cy_alone {i : Instr} {s t : State} (h : exec i s = .next t) (hzsp : i.writesZspAc = false)
    (hcy : i.writesCy = true) : ∃ c, t.flags = s.flags.setCy c := by
  cases i
  case dad | rrc | rlc | ral | rar | stc | cmc =>
    obtain rfl := finish_eq_next h
    exact ⟨_, rfl⟩
  case inr | dcr => cases hzsp
  all_goals exact absurd (hzsp.symm.trans hcy) Bool.false_ne_true

/-- The rows of R32 that write every flag but CY: INR and DCR. -/
theorem exec_cy_of_writes_zspAc {i : Instr} {s t : State} (h : exec i s = .next t) (hzsp : i.writesZspAc = true)
    (hcy : i.writesCy = false) : t.flags.cy = s.flags.cy := by
  cases i
  case inr | dcr => exact congrArg (·.flags.cy) (finish_eq_next h)
  case dad | rrc | rlc | ral | rar | stc | cmc => cases hcy
  all_goals exact absurd (hcy.symm.trans hzsp) Bool.false_ne_true

/-- Settles O18: an instruction that does not write all five flags writes none, CY alone, or all but CY. -/
theorem flagsChangeOnlyWhereThePolicySays : Obligations.FlagsChangeOnlyWhereThePolicySays := by
  intro i s t h
  constructor
  · intro hzsp
    cases hcy : i.writesCy with
    | false => simp only [exec_flags_of_not_writes h hzsp hcy, and_self]
    | true =>
      obtain ⟨c, hflags⟩ := exec_flags_of_writes_cy_alone h hzsp hcy
      rw [hflags]
      exact ⟨rfl, rfl, rfl, rfl⟩
  · intro hcy
    cases hzsp : i.writesZspAc with
    | false => rw [exec_flags_of_not_writes h hzsp hcy]
    | true => exact exec_cy_of_writes_zspAc h hzsp hcy

/-- INTE is written by EI and DI alone. -/
theorem exec_inte {i : Instr} {s t : State} (h : exec i s = .next t) (hei : i ≠ .ei) (hdi : i ≠ .di) : t.inte = s.inte := by
  cases i
  case undefined => cases h; rfl
  case ei | di => contradiction
  all_goals obtain rfl := finish_eq_next h
  case mvi | mov | inr | dcr => exact State.writeOperand_inte _ _ _
  case lxi | inx | dcx => exact State.writePair_inte _ _ _
  case pop => exact State.writeStackPair_inte _ _ _
  case jnz | jz | jnc | jc | jpo | jpe | jp | jm => exact State.jumpIf_keeps State.inte _ rfl
  case cnz | cz | cnc | cc | cpo | cpe | cp | cm => exact State.callIf_keeps State.inte _ rfl
  case rnz | rz | rnc | rc | rpo | rpe | rp | rm => exact State.returnIf_keeps State.inte _ rfl
  all_goals rfl

/-- The halt latch is written by HLT alone. -/
theorem exec_halted {i : Instr} {s t : State} (h : exec i s = .next t) (hhlt : i ≠ .hlt) : t.halted = s.halted := by
  cases i
  case undefined => cases h; rfl
  case hlt => contradiction
  all_goals obtain rfl := finish_eq_next h
  case mvi | mov | inr | dcr => exact State.writeOperand_halted _ _ _
  case lxi | inx | dcx => exact State.writePair_halted _ _ _
  case pop => exact State.writeStackPair_halted _ _ _
  case jnz | jz | jnc | jc | jpo | jpe | jp | jm => exact State.jumpIf_keeps State.halted _ rfl
  case cnz | cz | cnc | cc | cpo | cpe | cp | cm => exact State.callIf_keeps State.halted _ rfl
  case rnz | rz | rnc | rc | rpo | rpe | rp | rm => exact State.returnIf_keeps State.halted _ rfl
  all_goals rfl

/-- Every instruction but the undefined ones counts its step and leaves the fault record. -/
theorem exec_steps_faultRecord {i : Instr} {s t : State} (h : exec i s = .next t) (hdef : ∀ op, i ≠ .undefined op) :
    t.steps = s.steps + 1 ∧ t.faultRecord = s.faultRecord := by
  obtain ⟨op, hi, _⟩ | ⟨_, u, hexec, hsteps, hfault⟩ := exec_shape i s
  · exact absurd hi (hdef op)
  · rw [h] at hexec
    cases hexec
    exact ⟨congrArg (· + 1) hsteps, hfault⟩

/-- Settles O20: `exec_inte`, `exec_halted`, and the count of `exec_shape`. -/
theorem controlStateChangesOnlyByItsInstructions : Obligations.ControlStateChangesOnlyByItsInstructions := by
  intro i s t h
  refine ⟨exec_inte h, ?_, fun hdef => (exec_steps_faultRecord h hdef).1⟩
  by_cases hhlt : i = .hlt
  · subst hhlt
    obtain rfl := finish_eq_next h
    exact iff_of_true rfl (.inr rfl)
  · rw [exec_halted h hhlt, or_iff_left hhlt]

end Sys2Proof.Machine

namespace Sys2Proof

/-- The instructions with a frame of their own: EI and DI write INTE, HLT the halt latch, an undefined opcode the record. -/
def Instr.writesControl : Instr → Bool
  | .ei | .di | .hlt | .undefined _ => true
  | _ => false

theorem Instr.ne_of_writesControl {i j : Instr} (hi : i.writesControl = false) (hj : j.writesControl = true) : i ≠ j := by
  rintro rfl
  rw [hi] at hj
  cases hj

end Sys2Proof

namespace Sys2Proof.Machine

/-- The frame of a completed instruction, in the words of the per-instruction statements. -/
theorem exec_keeps {i : Instr} {s t : State} (h : exec i s = .next t) (hctl : i.writesControl = false) :
    s.keeps t i.writtenRegs (i.storeAddrs s) := by
  have hne {j : Instr} : j.writesControl = true → i ≠ j := Instr.ne_of_writesControl hctl
  obtain ⟨hsteps, hfault⟩ := exec_steps_faultRecord h fun _ => hne rfl
  exact ⟨fun r hr hmem => registersChangeOnlyWhereListed i s t r h hr hmem,
    fun a ha => bytesChangeOnlyWhereAnInstructionStores i s t a h ha,
    exec_inte h (hne rfl) (hne rfl), exec_halted h (hne rfl), hfault, hsteps⟩

/-- PC past the instruction, SP kept, and the frame: all that a statement about an instruction's result adds to it. -/
theorem exec_moves {i : Instr} {s t : State} (h : exec i s = .next t) (hctl : i.writesControl = false)
    (htr : i.transfers s = false) (hsp : i.writesSp s = false) :
    t.pc = s.pc + BitVec.ofNat 16 (encode i).length ∧ t.sp = s.sp ∧ s.keeps t i.writtenRegs (i.storeAddrs s) :=
  ⟨exec_pc_of_not_transfers h (fun _ => Instr.ne_of_writesControl hctl rfl) htr,
    spChangesOnlyWhereListed i s t h hsp, exec_keeps h hctl⟩

/-- The same of an instruction that writes no flag. -/
theorem exec_moves_no_flag {i : Instr} {s t : State} (h : exec i s = .next t) (hctl : i.writesControl = false)
    (htr : i.transfers s = false) (hsp : i.writesSp s = false) (hzsp : i.writesZspAc = false) (hcy : i.writesCy = false) :
    t.pc = s.pc + BitVec.ofNat 16 (encode i).length ∧ t.sp = s.sp ∧ t.flags = s.flags ∧
      s.keeps t i.writtenRegs (i.storeAddrs s) :=
  have ⟨hpc, hsp', hkeeps⟩ := exec_moves h hctl htr hsp
  ⟨hpc, hsp', exec_flags_of_not_writes h hzsp hcy, hkeeps⟩

/-- Every instruction keeps the canonical form of memory. -/
theorem exec_wf {i : Instr} {s t : State} (h : exec i s = .next t) (hwf : s.mem.wf = true) : t.mem.wf = true := by
  cases i
  case undefined => cases h; exact hwf
  all_goals obtain rfl := finish_eq_next h
  case mvi | mov | inr | dcr => exact State.writeOperand_wf (s.advance _) hwf _ _
  case sta | stax => exact State.writeByte_wf _ hwf _ _
  case shld | xthl => exact State.writeWord_wf _ hwf _ _
  case push | call | rst => exact State.push16_wf _ hwf _
  case cnz | cz | cnc | cc | cpo | cpe | cp | cm => exact State.callIf_wf (s.advance _) hwf _ _
  case lxi | inx | dcx => exact (State.writePair_mem _ _ _).symm ▸ hwf
  case pop => exact (State.writeStackPair_mem _ _ _).symm ▸ hwf
  case jnz | jz | jnc | jc | jpo | jpe | jp | jm => exact (State.jumpIf_keeps (·.mem.wf) _ rfl).trans hwf
  case rnz | rz | rnc | rc | rpo | rpe | rp | rm => exact (State.returnIf_keeps (·.mem.wf) _ rfl).trans hwf
  all_goals exact hwf

end Sys2Proof.Machine
end

section
/-! The invariant along a run, and the load that begins one (R250 to R257, R275 to R281). -/

namespace Sys2Proof.Machine

/-! ## The invariant -/

/-- The exception's record is accurate when it is taken. -/
theorem State.raiseUnimplementedOpcode_inv {s : State} (hwf : s.mem.wf = true) (hrun : s.running)
    (h : s.readByte s.pc ∈ undefinedOpcodes) : (s.raiseUnimplementedOpcode (s.readByte s.pc)).inv := by
  refine ⟨hwf, fun r hr => ?_⟩
  cases hr
  exact ⟨h, rfl, rfl, rfl, hrun.2⟩

/-- Without a record there is nothing to be accurate. -/
theorem State.inv_of_faultRecord_none {s : State} (hwf : s.mem.wf = true) (h : s.faultRecord = none) : s.inv := by
  refine ⟨hwf, fun r hr => ?_⟩
  rw [h] at hr
  cases hr

/-- The step of a state with no record: in place, into the exception, or past an instruction. -/
theorem step_cases {s : State} (hfault : s.faultRecord = none) :
    (s.halted = true ∧ step s = .next s) ∨
    (s.running ∧ s.readByte s.pc ∈ undefinedOpcodes ∧ step s = .next (s.raiseUnimplementedOpcode (s.readByte s.pc))) ∨
    ∃ t, exec s.fetch s = .next t ∧ step s = .next t ∧ t.faultRecord = none := by
  cases hhalt : s.halted with
  | true => exact .inl ⟨rfl, step_halted hfault hhalt⟩
  | false =>
    have hrun : s.running := ⟨hfault, hhalt⟩
    by_cases hmem : s.readByte s.pc ∈ undefinedOpcodes
    · exact .inr (.inl ⟨hrun, hmem, step_undefined hrun hmem⟩)
    · exact .inr (.inr (step_defined hrun hmem))

/-- From a state that meets the invariant and has no record there is a step, to a state that meets it. -/
theorem step_next_inv {s : State} (hfault : s.faultRecord = none) (hinv : s.inv) : ∃ t, step s = .next t ∧ t.inv := by
  obtain ⟨_, hstep⟩ | ⟨hrun, hmem, hstep⟩ | ⟨t, hexec, hstep, hnone⟩ := step_cases hfault
  · exact ⟨s, hstep, hinv⟩
  · exact ⟨_, hstep, State.raiseUnimplementedOpcode_inv hinv.1 hrun hmem⟩
  · exact ⟨t, hstep, State.inv_of_faultRecord_none (exec_wf hexec hinv.1) hnone⟩

/-- Settles O13: a state with a record has no step, and from any other `step_next_inv` gives the one there is. -/
theorem stepKeepsTheInvariant : Obligations.StepKeepsTheInvariant := by
  intro s t hinv hstep
  cases hfault : s.faultRecord with
  | some r =>
    rw [step_faulted hfault] at hstep
    cases hstep
  | none =>
    obtain ⟨t', hstep', hinv'⟩ := step_next_inv hfault hinv
    rw [hstep] at hstep'
    cases hstep'
    exact hinv'

/-- Settles O22, by induction on the number of steps, the run taken from its first step. -/
theorem runsEndOnlyInAFault : Obligations.RunsEndOnlyInAFault := by
  intro s n hfault hinv
  induction n generalizing s with
  | zero => exact .inl ⟨s, rfl, hinv⟩
  | succ n ih =>
    obtain ⟨s', hstep, hinv'⟩ := step_next_inv hfault hinv
    cases hfault' : s'.faultRecord with
    | none =>
      obtain ⟨t, hreach, ht⟩ | ⟨k, t, r, hk, hreach, hrec, hacc⟩ := ih s' hfault' hinv'
      · exact .inl ⟨t, ⟨s', hstep, hreach⟩, ht⟩
      · exact .inr ⟨k + 1, t, r, Nat.succ_lt_succ hk, ⟨s', hstep, hreach⟩, hrec, hacc⟩
    | some r =>
      cases n with
      | zero => exact .inl ⟨s', ⟨s', hstep, rfl⟩, hinv'⟩
      | succ n => exact .inr ⟨1, s', r, by omega, ⟨s', hstep, rfl⟩, hfault', hinv'.2 r hfault'⟩

/-! ## Reset and load -/

/-- A load writes memory and nothing else. -/
theorem State.loadBytes_eq (s : State) (base : Word) (bytes : List Byte) :
    s.loadBytes base bytes = { s with mem := (s.loadBytes base bytes).mem } := by
  induction bytes generalizing s base with
  | nil => rfl
  | cons v bytes ih => exact ih (s.writeByte base v) (base + 1)

theorem State.loadBytes_wf (s : State) (h : s.mem.wf = true) (base : Word) (bytes : List Byte) :
    (s.loadBytes base bytes).mem.wf = true := by
  induction bytes generalizing s base with
  | nil => exact h
  | cons v bytes ih => exact ih _ (s.writeByte_wf h base v) _

/-- The byte at distance `k` past the base, modulo 65,536, is byte `k` of the image where there is one. -/
theorem State.readByte_loadBytes (s : State) (base : Word) (bytes : List Byte) (hfit : bytes.length ≤ 65536) (a : Word) :
    (s.loadBytes base bytes).readByte a = (bytes[(a - base).toNat]?).getD (s.readByte a) := by
  induction bytes generalizing s base with
  | nil => rfl
  | cons v bytes ih =>
    rw [List.length_cons] at hfit
    rw [State.loadBytes, ih _ _ (by omega), State.readByte_writeByte]
    by_cases ha : a = base
    · have hlast : (base - (base + 1)).toNat = 65535 := by bv_omega
      rw [if_pos ha, ha, hlast, List.getElem?_eq_none (by omega), BitVec.sub_self]
      rfl
    · have hnext : (a - base).toNat = (a - (base + 1)).toNat + 1 := by bv_omega
      rw [if_neg ha, hnext, List.getElem?_cons_succ]

/-- Settles O14: the load of no bytes is the created state. -/
theorem resetMeetsTheInvariant : Obligations.ResetMeetsTheInvariant :=
  ⟨State.inv_of_faultRecord_none rfl rfl, ⟨rfl, rfl⟩, rfl⟩

theorem State.loaded_eq (c : Config) :
    State.loaded c = { State.created c.pcInit c.spInit with mem := (State.loaded c).mem } :=
  State.loadBytes_eq _ _ _

/-- Where the image fits no address wraps, so the distance past the base is the difference. -/
theorem State.loaded_readByte {c : Config} (hfit : c.image.length ≤ 65536 - c.loadBase.toNat) (a : Word) :
    (State.loaded c).readByte a =
      if c.loadBase.toNat ≤ a.toNat then (c.image[a.toNat - c.loadBase.toNat]?).getD 0x00 else 0x00 := by
  have hread := State.readByte_loadBytes (State.created c.pcInit c.spInit) c.loadBase c.image (by omega) a
  refine hread.trans ?_
  split
  case isTrue hle =>
    rw [show (a - c.loadBase).toNat = a.toNat - c.loadBase.toNat by bv_omega]
    rfl
  case isFalse hlt =>
    rw [List.getElem?_eq_none (by bv_omega)]
    rfl

/-- Settles O15: the load changes no field of the created state but memory. -/
theorem bootLoadsTheImageIntoZeroedState : Obligations.BootLoadsTheImageIntoZeroedState := by
  intro c
  constructor
  · intro hfit
    have hboot : boot c = .next (State.loaded c) := if_pos (decide_eq_true hfit)
    have hwf : (State.loaded c).mem.wf = true := State.loadBytes_wf _ rfl _ _
    have hread := State.loaded_readByte hfit
    have hregs : (State.loaded c).regs = (State.created c.pcInit c.spInit).regs := by rw [State.loaded_eq]
    have hzero : ∀ r, r ≠ .m → (State.loaded c).readOperand r = 0 := fun r hr =>
      (State.readOperand_of_regs_eq hr hregs).trans (State.created_readOperand _ _ hr)
    refine ⟨_, hboot, ?_⟩
    rw [State.loaded_eq] at hwf hread hzero ⊢
    exact ⟨State.inv_of_faultRecord_none hwf rfl, ⟨rfl, rfl⟩, hzero, rfl, rfl, rfl, rfl, rfl, hread⟩
  · intro hlong
    exact if_neg fun hfits => absurd (of_decide_eq_true hfits) (Nat.not_le.mpr hlong)

/-! ## INTE and the step counter are read by no instruction -/

/-- The same state with other values of INTE and the step counter. -/
def State.withControl (s : State) (v : Bool) (n : Nat) : State := { s with inte := v, steps := n }

section
variable (s : State) (v : Bool) (n : Nat)

theorem State.withControl_flags : (s.withControl v n).flags = s.flags := rfl

theorem State.withControl_jumpIf (cond : Cond) (a16 : Word) :
    (s.withControl v n).jumpIf cond a16 = (s.jumpIf cond a16).withControl v n := by
  rw [State.jumpIf, State.jumpIf, s.withControl_flags v n]
  split <;> rfl

theorem State.withControl_callIf (cond : Cond) (a16 : Word) :
    (s.withControl v n).callIf cond a16 = (s.callIf cond a16).withControl v n := by
  rw [State.callIf, State.callIf, s.withControl_flags v n]
  split <;> rfl

theorem State.withControl_returnIf (cond : Cond) :
    (s.withControl v n).returnIf cond = (s.returnIf cond).withControl v n := by
  rw [State.returnIf, State.returnIf, s.withControl_flags v n]
  split <;> rfl

end

/-- A completed step of a state with other values there is the step of the state, with those values, counted. -/
theorem finish_withControl {u u' t : State} {v : Bool} {n : Nat} (h : finish u = .next t) (hu : u' = u.withControl v n) :
    finish u' = .next { t with inte := v, steps := n + 1 } := by
  rw [hu, finish_eq_next h]
  rfl

/-- Settles O21: the meaning makes the same state of a state with other values there, and `finish` counts the step. -/
theorem nothingReadsInteOrSteps : Obligations.NothingReadsInteOrSteps := by
  intro i s t v n h hei hdi hdef
  cases i
  case undefined op => exact absurd rfl (hdef op)
  case ei | di => contradiction
  all_goals refine finish_withControl (v := v) (n := n) h ?_
  case mov dst src => cases dst <;> cases src <;> rfl
  case mvi x _ | inr x | dcr x | add x | adc x | sub x | sbb x | ana x | xra x | ora x | cmp x
      | lxi x _ | inx x | dcx x | dad x | stax x | ldax x | push x | pop x =>
    cases x <;> rfl
  case jnz | jz | jnc | jc | jpo | jpe | jp | jm => exact State.withControl_jumpIf (s.advance 3) v n _ _
  case cnz | cz | cnc | cc | cpo | cpe | cp | cm => exact State.withControl_callIf (s.advance 3) v n _ _
  case rnz | rz | rnc | rc | rpo | rpe | rp | rm => exact State.withControl_returnIf (s.advance 1) v n _
  all_goals rfl

end Sys2Proof.Machine
end

section
/-! Words and pairs: what a word read or popped is made of, and what a pair holds after it is written (R22, R65, R66, R73). -/

namespace Sys2Proof.Machine

@[simp] theorem State.readPair_writePair_same (s : State) (rp : RegPair) (v : Word) : (s.writePair rp v).readPair rp = v := by
  cases rp with
  | bc | de | hl => exact joinBytes_hi_lo v
  | sp => rfl

theorem State.readWord_toNat (s : State) (a : Word) :
    (s.readWord a).toNat = (s.readByte (a + 1)).toNat * 256 + (s.readByte a).toNat :=
  joinBytes_toNat _ _

theorem State.topIs_popValue (s : State) : s.topIs s.popValue := s.readWord_toNat s.sp

/-- What was pushed is on top, wherever SP is. -/
@[simp] theorem State.popValue_push16 (s : State) (v : Word) : (s.push16 v).popValue = v := by
  have hnext : s.sp - 2 + 1 = s.sp - 1 := by bv_omega
  rw [State.popValue, State.readWord, State.push16_sp, hnext, State.readByte_push16_high, State.readByte_push16_low,
    joinBytes_hi_lo]

/-- Settles O28: two down and two up again, modulo 65,536. -/
theorem popReadsLowThenHighAtSp : Obligations.PopReadsLowThenHighAtSp := fun s v =>
  ⟨s.topIs_popValue, rfl, s.popValue_push16 v, BitVec.sub_add_cancel s.sp 2⟩

/-! ## Pairs as views (R22) -/

/-- The next word: the low byte steps, and carries into the high byte exactly when it becomes 0. -/
theorem joinBytes_add_one (h l : Byte) :
    loByte (joinBytes h l + 1) = l + 1 ∧
    hiByte (joinBytes h l + 1) = if loByte (joinBytes h l + 1) = 0 then h + 1 else h := by
  have hlo : loByte (joinBytes h l + 1) = l + 1 := by
    apply BitVec.eq_of_toNat_eq
    rw [loByte_toNat, BitVec.toNat_add, joinBytes_toNat]
    bv_omega
  refine ⟨hlo, BitVec.eq_of_toNat_eq ?_⟩
  rw [hlo, hiByte_toNat, BitVec.toNat_add, joinBytes_toNat]
  split <;> bv_omega

/-- Settles O24: a pair is `joinBytes` of its registers, written as `hiByte` and `loByte`. -/
theorem pairsAreViewsOfTheirRegisters : Obligations.PairsAreViewsOfTheirRegisters := by
  refine ⟨fun s => ⟨joinBytes_toNat _ _, joinBytes_toNat _ _, joinBytes_toNat _ _, rfl, rfl, rfl⟩, fun s v => ?_,
    fun s => ?_, fun pc sp rp hrp => ?_⟩
  · have hbytes : (hiByte v).toNat = v.toNat / 256 ∧ (loByte v).toNat = v.toNat % 256 := ⟨hiByte_toNat v, loByte_toNat v⟩
    exact ⟨⟨_, rfl, hbytes⟩, ⟨_, rfl, hbytes⟩, ⟨_, rfl, hbytes⟩⟩
  · exact ⟨⟨_, rfl, joinBytes_add_one _ _⟩, ⟨_, rfl, joinBytes_add_one _ _⟩, ⟨_, rfl, joinBytes_add_one _ _⟩⟩
  · have hzero : joinBytes 0 0 = 0x0000 := by decide
    cases rp with
    | sp => contradiction
    | bc | de | hl => exact hzero

end Sys2Proof.Machine
end

section
/-! Loads, moves and single steps of an operand: NOP, MVI, LXI, MOV, INR, DCR, INX, DCX, DAD (R100 to R126), and the
instructions that write one bit or nothing. -/

namespace Sys2Proof.Machine

/-- Settles O29: the meanings compute. -/
theorem nopOutInOnlyMovePc : Obligations.NopOutInOnlyMovePc := fun _ _ => ⟨rfl, rfl, rfl⟩

/-- Settles O54: the meanings compute. -/
theorem eiDiHltSphlWriteTheirBit : Obligations.EiDiHltSphlWriteTheirBit := fun _ => ⟨rfl, rfl, rfl, rfl⟩

theorem exec_mvi (dst : Operand8) (d8 : Byte) (s : State) :
    ∃ t, exec (.mvi dst d8) s = .next t ∧ t.readOperand dst = d8 := by
  refine ⟨_, rfl, ?_⟩
  rw [State.retire_readOperand, State.readOperand_writeOperand_same]

/-- Settles O30: the write, and the frame of MVI. -/
theorem mviWritesItsOperand : Obligations.MviWritesItsOperand := by
  intro dst d8 s
  obtain ⟨t, h, hdst⟩ := exec_mvi dst d8 s
  exact ⟨t, h, hdst, exec_moves_no_flag h rfl rfl rfl rfl rfl⟩

theorem exec_mov (dst src : Operand8) (s : State) :
    ∃ t, exec (.mov dst src) s = .next t ∧ t.readOperand dst = s.readOperand src := by
  refine ⟨_, rfl, ?_⟩
  rw [State.retire_readOperand, State.readOperand_writeOperand_same, State.advance_readOperand]

/-- Settles O32: the copy, and the frame of MOV. -/
theorem movCopiesItsSource : Obligations.MovCopiesItsSource := by
  intro dst src s _
  obtain ⟨t, h, hdst⟩ := exec_mov dst src s
  exact ⟨t, h, hdst, exec_moves_no_flag h rfl rfl rfl rfl rfl⟩

/-- A pair written, other than SP: PC, flags and the frame beside it. -/
theorem exec_writes_pair {i : Instr} {s t : State} {rp : RegPair} (h : exec i s = .next t) (hctl : i.writesControl = false)
    (htr : i.transfers s = false) (hsp : i.writesSp s = decide (rp = .sp)) (hzsp : i.writesZspAc = false)
    (hcy : i.writesCy = false) :
    t.pc = s.pc + BitVec.ofNat 16 (encode i).length ∧ (rp ≠ .sp → t.sp = s.sp) ∧ t.flags = s.flags ∧
      s.keeps t i.writtenRegs (i.storeAddrs s) :=
  ⟨exec_pc_of_not_transfers h (fun _ => Instr.ne_of_writesControl hctl rfl) htr,
    fun hrp => spChangesOnlyWhereListed i s t h (hsp.trans (decide_eq_false hrp)),
    exec_flags_of_not_writes h hzsp hcy, exec_keeps h hctl⟩

theorem exec_lxi (rp : RegPair) (d16 : Word) (s : State) :
    ∃ t, exec (.lxi rp d16) s = .next t ∧ t.readPair rp = d16 := by
  refine ⟨_, rfl, ?_⟩
  rw [State.retire_readPair, State.readPair_writePair_same]

theorem exec_inx (rp : RegPair) (s : State) : ∃ t, exec (.inx rp) s = .next t ∧ t.readPair rp = s.readPair rp + 1 := by
  refine ⟨_, rfl, ?_⟩
  rw [State.retire_readPair, State.readPair_writePair_same, State.advance_readPair]

theorem exec_dcx (rp : RegPair) (s : State) : ∃ t, exec (.dcx rp) s = .next t ∧ t.readPair rp = s.readPair rp - 1 := by
  refine ⟨_, rfl, ?_⟩
  rw [State.retire_readPair, State.readPair_writePair_same, State.advance_readPair]

/-- Settles O31: the write, and the frame of LXI. -/
theorem lxiWritesItsPair : Obligations.LxiWritesItsPair := by
  intro rp d16 s
  obtain ⟨t, h, hrp⟩ := exec_lxi rp d16 s
  exact ⟨t, h, hrp, exec_writes_pair h rfl rfl rfl rfl rfl⟩

/-- Settles O34: a pair's value is a word, stepped modulo 65,536. -/
theorem inxDcxStepThePairAndNoFlag : Obligations.InxDcxStepThePairAndNoFlag := by
  intro rp s
  constructor
  · obtain ⟨t, h, hrp⟩ := exec_inx rp s
    exact ⟨t, h, by rw [hrp]; exact BitVec.toNat_add _ _, exec_writes_pair h rfl rfl rfl rfl rfl⟩
  · obtain ⟨t, h, hrp⟩ := exec_dcx rp s
    exact ⟨t, h, by rw [hrp]; bv_omega, exec_writes_pair h rfl rfl rfl rfl rfl⟩

/-! ## DAD -/

theorem dadSum_toNat (x y : Word) : (dadSum x y).toNat = x.toNat + y.toNat := by
  have hx := x.isLt
  have hy := y.isLt
  simp only [dadSum, BitVec.toNat_add, BitVec.toNat_setWidth]
  omega

theorem dadSum_carry_iff (x y : Word) : (dadSum x y).getLsbD 16 = true ↔ 65535 < x.toNat + y.toNat := by
  rw [topBit_iff _ (dadSum x y).isLt, dadSum_toNat]
  exact Iff.rfl

theorem exec_dad (rp : RegPair) (s : State) : ∃ t, exec (.dad rp) s = .next t ∧
    t.hl = (dadSum s.hl (s.readPair rp)).setWidth 16 ∧
    t.flags = s.flags.setCy ((dadSum s.hl (s.readPair rp)).getLsbD 16) := by
  refine ⟨_, rfl, ?_, ?_⟩
  · simp [State.hl]
  · simp

/-- Settles O35: the 17-bit sum gives HL its low 16 bits and CY its top bit. -/
theorem dadAddsToHlAndWritesCarryAlone : Obligations.DadAddsToHlAndWritesCarryAlone := by
  intro rp s
  obtain ⟨t, h, hhl, hflags⟩ := exec_dad rp s
  refine ⟨t, h, ?_, ?_, ?_⟩
  · rw [hhl, BitVec.toNat_setWidth, dadSum_toNat]
  · rw [hflags, Flags.setCy_cy, dadSum_carry_iff]
  · rw [hflags]
    exact ⟨rfl, rfl, rfl, rfl, exec_moves h rfl rfl rfl⟩

/-! ## INR and DCR -/

theorem Flags.ofIncDec_describe (f : Flags) (x : Sum8) : (f.ofIncDec x).describe x.r :=
  Flags.describe_of_eq (f.ofIncDec_z x) (f.ofIncDec_s x) (f.ofIncDec_p x)

/-- The operand and the flags after INR. -/
theorem exec_inr (dst : Operand8) (s : State) : ∃ t, exec (.inr dst) s = .next t ∧
    t.readOperand dst = (add8 (s.readOperand dst) 1 false).r ∧
    t.flags = s.flags.ofIncDec (add8 (s.readOperand dst) 1 false) := by
  refine ⟨_, rfl, ?_, ?_⟩
  · rw [State.retire_readOperand, State.putIncDec_readOperand, State.advance_readOperand]
  · rw [State.advance_readOperand]
    rfl

/-- The operand and the flags after DCR. -/
theorem exec_dcr (dst : Operand8) (s : State) : ∃ t, exec (.dcr dst) s = .next t ∧
    t.readOperand dst = (sub8 (s.readOperand dst) 1 false).r ∧
    t.flags = s.flags.ofIncDec (sub8 (s.readOperand dst) 1 false) := by
  refine ⟨_, rfl, ?_, ?_⟩
  · rw [State.retire_readOperand, State.putIncDec_readOperand, State.advance_readOperand]
  · rw [State.advance_readOperand]
    rfl

/-- Settles O33: the adder and the subtractor with 1, in exact integers. -/
theorem inrDcrStepByOneAndKeepCarry : Obligations.InrDcrStepByOneAndKeepCarry := by
  intro dst s
  have hone : (1 : Byte).toNat = 1 := rfl
  have hlt := (s.readOperand dst).isLt
  constructor
  · obtain ⟨t, h, hr, hflags⟩ := exec_inr dst s
    refine ⟨t, h, ?_, ?_, ?_, ?_, exec_moves h rfl rfl rfl⟩
    · rw [hr, add8_r_toNat]
      rfl
    · rw [hr, hflags]
      exact Flags.ofIncDec_describe _ _
    · rw [hflags, Flags.ofIncDec_cy]
    · rw [hflags, Flags.ofIncDec_ac, add8_ac_iff, hone, Bool.toNat_false]
      omega
  · obtain ⟨t, h, hr, hflags⟩ := exec_dcr dst s
    refine ⟨t, h, ?_, ?_, ?_, ?_, exec_moves h rfl rfl rfl⟩
    · rw [hr, sub8_r_toNat, hone, Bool.toNat_false]
      omega
    · rw [hr, hflags]
      exact Flags.ofIncDec_describe _ _
    · rw [hflags, Flags.ofIncDec_cy]
    · rw [hflags, Flags.ofIncDec_ac, sub8_ac_iff, hone, Bool.toNat_false]
      omega

end Sys2Proof.Machine
end

section
/-! The accumulator: sums, differences, logic and comparison, with the flags of each (R140 to R155), the rotates and the
complements (R221, R231 to R233, R235 to R237), and the decimal adjust (R234). -/

namespace Sys2Proof.Machine

/-- Settles O25: the 9-bit and the 5-bit sum in exact integers. -/
theorem adderGivesSumAndBothCarries : Obligations.AdderGivesSumAndBothCarries := fun a b c =>
  ⟨add8_r_toNat a b c, add8_cy_iff a b c, add8_ac_iff a b c⟩

/-! ## Sums -/

theorem Flags.ofSum_describe (f : Flags) (x : Sum8) : (f.ofSum x).describe x.r :=
  Flags.describe_of_eq (f.ofSum_z x) (f.ofSum_s x) (f.ofSum_p x)

/-- The addition both forms end in, after PC has moved past `n` bytes. -/
theorem State.addA_addsTo (s : State) (n : Nat) (v : Byte) (c : Bool) : s.addsTo ((s.advance n).addA v c).retire v c :=
  ⟨add8_r_toNat _ v c, add8_cy_iff _ v c, add8_ac_iff _ v c, Flags.ofSum_describe _ _⟩

theorem exec_add (src : Operand8) (s : State) :
    exec (.add src) s = .next ((s.advance 1).addA (s.readOperand src) false).retire := by
  rw [← s.advance_readOperand 1]
  rfl

theorem exec_adc (src : Operand8) (s : State) :
    exec (.adc src) s = .next ((s.advance 1).addA (s.readOperand src) s.flags.cy).retire := by
  rw [← s.advance_readOperand 1]
  rfl

/-- Settles O36: all four forms end in `addA`. -/
theorem addFamilyAddsIntoA : Obligations.AddFamilyAddsIntoA := by
  intro s
  refine ⟨fun src => ?_, fun src => ?_, fun d8 => ?_, fun d8 => ?_⟩
  · have h := exec_add src s
    exact ⟨_, h, s.addA_addsTo 1 _ _, exec_moves h rfl rfl rfl⟩
  · have h := exec_adc src s
    exact ⟨_, h, s.addA_addsTo 1 _ _, exec_moves h rfl rfl rfl⟩
  · have h : exec (.adi d8) s = .next ((s.advance 2).addA d8 false).retire := rfl
    exact ⟨_, h, s.addA_addsTo 2 _ _, exec_moves h rfl rfl rfl⟩
  · have h : exec (.aci d8) s = .next ((s.advance 2).addA d8 s.flags.cy).retire := rfl
    exact ⟨_, h, s.addA_addsTo 2 _ _, exec_moves h rfl rfl rfl⟩

/-! ## Differences -/

/-- The subtractor's flags are those of the exact difference. -/
theorem Flags.ofSum_sub8_ofDifference (f : Flags) (a v : Byte) (c : Bool) :
    (f.ofSum (sub8 a v c)).ofDifference a v c (sub8 a v c).r := by
  refine ⟨?_, sub8_cy_iff a v c, sub8_ac_iff a v c, Flags.ofSum_describe _ _⟩
  have ha := a.isLt
  have hv := v.isLt
  have hc := Bool.toNat_le c
  rw [sub8_r_toNat]
  omega

theorem exec_sub (src : Operand8) (s : State) :
    exec (.sub src) s = .next ((s.advance 1).subA (s.readOperand src) false).retire := by
  rw [← s.advance_readOperand 1]
  rfl

theorem exec_sbb (src : Operand8) (s : State) :
    exec (.sbb src) s = .next ((s.advance 1).subA (s.readOperand src) s.flags.cy).retire := by
  rw [← s.advance_readOperand 1]
  rfl

/-- Settles O37: all four forms end in `subA`. -/
theorem subFamilySubtractsFromA : Obligations.SubFamilySubtractsFromA := by
  intro s
  refine ⟨fun src => ?_, fun src => ?_, fun d8 => ?_, fun d8 => ?_⟩
  · have h := exec_sub src s
    exact ⟨_, h, Flags.ofSum_sub8_ofDifference _ _ _ _, exec_moves h rfl rfl rfl⟩
  · have h := exec_sbb src s
    exact ⟨_, h, Flags.ofSum_sub8_ofDifference _ _ _ _, exec_moves h rfl rfl rfl⟩
  · have h : exec (.sui d8) s = .next ((s.advance 2).subA d8 false).retire := rfl
    exact ⟨_, h, Flags.ofSum_sub8_ofDifference _ _ _ _, exec_moves h rfl rfl rfl⟩
  · have h : exec (.sbi d8) s = .next ((s.advance 2).subA d8 s.flags.cy).retire := rfl
    exact ⟨_, h, Flags.ofSum_sub8_ofDifference _ _ _ _, exec_moves h rfl rfl rfl⟩

/-! ## Comparison -/

/-- The flags of a difference without borrow in, read as a comparison. -/
theorem Flags.ofDifference.compares {f : Flags} {a v r : Byte} (h : f.ofDifference a v false r) :
    (f.z = true ↔ a = v) ∧ (f.cy = true ↔ a.toNat < v.toNat) := by
  obtain ⟨hr, hcy, -, hz, -, -⟩ := h
  rw [Bool.toNat_false, Nat.add_zero] at hr hcy
  refine ⟨?_, hcy⟩
  have ha := a.isLt
  have hv := v.isLt
  have hrlt := r.isLt
  rw [hz, ← BitVec.toNat_inj]
  omega

theorem exec_cmp (src : Operand8) (s : State) :
    exec (.cmp src) s = .next ((s.advance 1).compareA (s.readOperand src)).retire := by
  rw [← s.advance_readOperand 1]
  rfl

/-- Settles O39: the flags of `subA` without its write to A. -/
theorem compareWritesFlagsAlone : Obligations.CompareWritesFlagsAlone := by
  intro s
  refine ⟨fun src => ?_, fun d8 => ?_⟩
  · have h := exec_cmp src s
    have hdiff := Flags.ofSum_sub8_ofDifference s.flags s.regs.a (s.readOperand src) false
    exact ⟨_, h, ⟨_, hdiff⟩, hdiff.compares.1, hdiff.compares.2, exec_moves h rfl rfl rfl⟩
  · have h : exec (.cpi d8) s = .next ((s.advance 2).compareA d8).retire := rfl
    have hdiff := Flags.ofSum_sub8_ofDifference s.flags s.regs.a d8 false
    exact ⟨_, h, ⟨_, hdiff⟩, hdiff.compares.1, hdiff.compares.2, exec_moves h rfl rfl rfl⟩

/-! ## Logic -/

theorem Flags.ofLogic_describe (f : Flags) (r : Byte) : (f.ofLogic r).describe r :=
  Flags.describe_of_eq (f.ofLogic_z r) (f.ofLogic_s r) (f.ofLogic_p r)

/-- The logical operation both forms end in, after PC has moved past `n` bytes. -/
theorem State.putLogic_combinesTo {op : Bool → Bool → Bool} {s : State} (n : Nat) {v r : Byte}
    (h : bitwise op s.regs.a v r) : State.combinesTo op s ((s.advance n).putLogic r).retire v :=
  ⟨h, Flags.ofLogic_describe _ r, rfl, rfl⟩

theorem bitwise_and (a v : Byte) : bitwise and a v (a &&& v) := fun _ _ => BitVec.getLsbD_and
theorem bitwise_xor (a v : Byte) : bitwise xor a v (a ^^^ v) := fun _ _ => BitVec.getLsbD_xor
theorem bitwise_or (a v : Byte) : bitwise or a v (a ||| v) := fun _ _ => BitVec.getLsbD_or

theorem exec_ana (src : Operand8) (s : State) :
    exec (.ana src) s = .next ((s.advance 1).putLogic (s.regs.a &&& s.readOperand src)).retire := by
  rw [← s.advance_readOperand 1]
  rfl

theorem exec_xra (src : Operand8) (s : State) :
    exec (.xra src) s = .next ((s.advance 1).putLogic (s.regs.a ^^^ s.readOperand src)).retire := by
  rw [← s.advance_readOperand 1]
  rfl

theorem exec_ora (src : Operand8) (s : State) :
    exec (.ora src) s = .next ((s.advance 1).putLogic (s.regs.a ||| s.readOperand src)).retire := by
  rw [← s.advance_readOperand 1]
  rfl

/-- Settles O38: all six forms end in `putLogic`. -/
theorem logicFamilyCombinesIntoAAndClearsCarries : Obligations.LogicFamilyCombinesIntoAAndClearsCarries := by
  intro s
  refine ⟨fun src => ?_, fun src => ?_, fun src => ?_, fun d8 => ?_, fun d8 => ?_, fun d8 => ?_⟩
  · have h := exec_ana src s
    exact ⟨_, h, State.putLogic_combinesTo 1 (bitwise_and _ _), exec_moves h rfl rfl rfl⟩
  · have h := exec_xra src s
    exact ⟨_, h, State.putLogic_combinesTo 1 (bitwise_xor _ _), exec_moves h rfl rfl rfl⟩
  · have h := exec_ora src s
    exact ⟨_, h, State.putLogic_combinesTo 1 (bitwise_or _ _), exec_moves h rfl rfl rfl⟩
  · have h : exec (.ani d8) s = .next ((s.advance 2).putLogic (s.regs.a &&& d8)).retire := rfl
    exact ⟨_, h, State.putLogic_combinesTo 2 (bitwise_and _ _), exec_moves h rfl rfl rfl⟩
  · have h : exec (.xri d8) s = .next ((s.advance 2).putLogic (s.regs.a ^^^ d8)).retire := rfl
    exact ⟨_, h, State.putLogic_combinesTo 2 (bitwise_xor _ _), exec_moves h rfl rfl rfl⟩
  · have h : exec (.ori d8) s = .next ((s.advance 2).putLogic (s.regs.a ||| d8)).retire := rfl
    exact ⟨_, h, State.putLogic_combinesTo 2 (bitwise_or _ _), exec_moves h rfl rfl rfl⟩

end Sys2Proof.Machine
end

section
/-! The rotates, the complements and the decimal adjust (R221, R231 to R237). -/

namespace Sys2Proof.Machine

/-! ## Rotates -/

/-- A shift to the right with `c` at the top: every other bit is the one above it. -/
theorem shiftRight_bits (c : Bool) (a : Byte) :
    (∀ k, k < 7 → (flagBit c ++ a.extractLsb' 1 7).getLsbD k = a.getLsbD (k + 1)) ∧
    (flagBit c ++ a.extractLsb' 1 7).getLsbD 7 = c := by
  constructor
  · intro k hk
    rw [BitVec.getLsbD_append]
    simp [hk, Nat.add_comm]
  · rw [BitVec.getLsbD_append]
    simp [flagBit]

/-- A shift to the left with `c` at the bottom: every other bit is the one below it. -/
theorem shiftLeft_bits (c : Bool) (a : Byte) :
    (∀ k, k < 7 → (a.extractLsb' 0 7 ++ flagBit c).getLsbD (k + 1) = a.getLsbD k) ∧
    (a.extractLsb' 0 7 ++ flagBit c).getLsbD 0 = c := by
  constructor
  · intro k hk
    rw [BitVec.getLsbD_append]
    simp [hk]
  · rw [BitVec.getLsbD_append]
    simp [flagBit]

/-- Settles O53: a rotate is a shift with CY or the bit shifted out at the free end. -/
theorem rotatesMoveBitsAndWriteCarryAlone : Obligations.RotatesMoveBitsAndWriteCarryAlone := by
  intro s
  refine ⟨?_, ?_, ?_, ?_⟩
  · obtain ⟨hbits, htop⟩ := shiftRight_bits (s.regs.a.getLsbD 0) s.regs.a
    have h : exec .rrc s = .next _ := rfl
    exact ⟨_, h, hbits, htop, rfl, exec_moves h rfl rfl rfl⟩
  · obtain ⟨hbits, hlow⟩ := shiftLeft_bits (s.regs.a.getLsbD 7) s.regs.a
    have h : exec .rlc s = .next _ := rfl
    exact ⟨_, h, hbits, hlow, rfl, exec_moves h rfl rfl rfl⟩
  · obtain ⟨hbits, htop⟩ := shiftRight_bits s.flags.cy s.regs.a
    have h : exec .rar s = .next _ := rfl
    exact ⟨_, h, hbits, htop, rfl, exec_moves h rfl rfl rfl⟩
  · obtain ⟨hbits, hlow⟩ := shiftLeft_bits s.flags.cy s.regs.a
    have h : exec .ral s = .next _ := rfl
    exact ⟨_, h, hbits, hlow, rfl, exec_moves h rfl rfl rfl⟩

/-! ## CMA, STC, CMC -/

/-- Settles O55: each is one update of A or CY, and the frame. -/
theorem cmaStcCmcComplementAndSet : Obligations.CmaStcCmcComplementAndSet := by
  intro s
  have hcma : exec .cma s = .next ((s.advance 1).setA (~~~s.regs.a)).retire := rfl
  have hstc : exec .stc s = .next ((s.advance 1).setFlags (s.flags.setCy true)).retire := rfl
  have hcmc : exec .cmc s = .next ((s.advance 1).setFlags (s.flags.setCy !s.flags.cy)).retire := rfl
  refine ⟨⟨_, hcma, fun k hk => ?_, rfl, exec_moves hcma rfl rfl rfl⟩, ⟨_, hstc, rfl, exec_moves hstc rfl rfl rfl⟩,
    _, hcmc, rfl, exec_moves hcmc rfl rfl rfl⟩
  simp [hk]

/-! ## DAA -/

theorem lowDigit_toNat (a : Byte) : (a.extractLsb' 0 4).toNat = a.toNat % 16 := by
  simp [BitVec.extractLsb'_toNat]

theorem highDigit_toNat (a : Byte) : (a.extractLsb' 4 4).toNat = a.toNat / 16 := by
  have := a.isLt
  simp [BitVec.extractLsb'_toNat, Nat.shiftRight_eq_div_pow]
  omega

theorem daaLowFix_iff (a : Byte) (f : Flags) : daaLowFix a f = true ↔ 9 < a.toNat % 16 ∨ f.ac = true := by
  simp only [daaLowFix, lowDigit_toNat, Bool.or_eq_true, decide_eq_true_eq]

theorem daaHighFix_iff (a : Byte) (f : Flags) :
    daaHighFix a f = true ↔ 9 < a.toNat / 16 ∨ f.cy = true ∨ (9 ≤ a.toNat / 16 ∧ 9 < a.toNat % 16) := by
  simp only [daaHighFix, lowDigit_toNat, highDigit_toNat, Bool.or_eq_true, Bool.and_eq_true, decide_eq_true_eq, or_assoc]

/-- The correction in its four cases. -/
theorem daaCorrection_toNat (a : Byte) (f : Flags) :
    (daaLowFix a f = true ∧ daaHighFix a f = true → (daaCorrection a f).toNat = 0x66) ∧
    (daaLowFix a f = true ∧ ¬ daaHighFix a f = true → (daaCorrection a f).toNat = 0x06) ∧
    (¬ daaLowFix a f = true ∧ daaHighFix a f = true → (daaCorrection a f).toNat = 0x60) ∧
    (¬ daaLowFix a f = true ∧ ¬ daaHighFix a f = true → (daaCorrection a f).toNat = 0x00) := by
  unfold daaCorrection
  cases daaLowFix a f <;> cases daaHighFix a f <;> simp

/-- A set CY asks for the high correction itself, so CY after DAA is that decision. -/
theorem daaFlags_cy_iff (a : Byte) (f : Flags) : (daaFlags a f).cy = true ↔ daaHighFix a f = true := by
  have hcy : f.cy = true → daaHighFix a f = true := fun h => (daaHighFix_iff a f).mpr (.inr (.inl h))
  simpa [daaFlags] using hcy

theorem daaFlags_describe (a : Byte) (f : Flags) : (daaFlags a f).describe (daaSum a f).r :=
  Flags.describe_of_eq rfl rfl rfl

theorem exec_daa (s : State) : ∃ t, exec .daa s = .next t ∧ t.regs.a = (daaSum s.regs.a s.flags).r ∧
    t.flags = daaFlags s.regs.a s.flags :=
  ⟨_, rfl, rfl, rfl⟩

/-- Settles O57: the correction is `daaCorrection`, its two decisions read in exact integers. -/
theorem daaAppliesBothCorrections : Obligations.DaaAppliesBothCorrections := by
  intro s lo hi low high
  obtain ⟨t, h, ha, hflags⟩ := exec_daa s
  have hcorr := daaCorrection_toNat s.regs.a s.flags
  rw [daaLowFix_iff, daaHighFix_iff] at hcorr
  obtain ⟨hboth, hlow, hhigh, hnone⟩ := hcorr
  refine ⟨t, (daaCorrection s.regs.a s.flags).toNat, h, hboth, hlow, hhigh, hnone, ?_, ?_, ?_, ?_, exec_moves h rfl rfl rfl⟩
  · rw [ha]
    exact add8_r_toNat _ _ false
  · rw [hflags, daaFlags_cy_iff, daaHighFix_iff]
  · rw [hflags]
    exact add8_ac_iff _ _ false
  · rw [ha, hflags]
    exact daaFlags_describe _ _

/-! ## Decimal addition -/

theorem execAll_pair {i j : Instr} {s t u : State} (hi : exec i s = .next t) (hj : exec j t = .next u) :
    execAll [i, j] s = .next u := by
  simp only [execAll, hi, hj]

/-- DAA's two decisions on the binary sum of two packed decimal numbers `x`, `y` and a carry in: the low digits' sum passes 9,
and the whole decimal sum passes 99. -/
theorem daa_decisions {x y c a : Nat} (hxl : x % 16 ≤ 9) (hyl : y % 16 ≤ 9) (hc : c ≤ 1)
    (ha : a = (x + y + c) % 256) :
    ((9 < a % 16 ∨ 15 < x % 16 + y % 16 + c) ↔ 9 < x % 16 + y % 16 + c) ∧
    ((9 < a / 16 ∨ 255 < x + y + c ∨ (9 ≤ a / 16 ∧ 9 < a % 16)) ↔
      100 ≤ (x / 16 * 10 + x % 16) + (y / 16 * 10 + y % 16) + c) := by
  constructor <;> omega

/-- The binary sum of two packed decimal numbers `16 p + q`, `16 r + w` and a carry in, corrected by those decisions, is their
packed decimal sum modulo 100. -/
theorem packed_sum {p q r w c n corr : Nat} (hp : p ≤ 9) (hq : q ≤ 9) (hr : r ≤ 9) (hw : w ≤ 9) (hc : c ≤ 1)
    (hboth : 9 < q + w + c ∧ 100 ≤ p * 10 + q + (r * 10 + w) + c → corr = 0x66)
    (hlow : 9 < q + w + c ∧ ¬ 100 ≤ p * 10 + q + (r * 10 + w) + c → corr = 0x06)
    (hhigh : ¬ 9 < q + w + c ∧ 100 ≤ p * 10 + q + (r * 10 + w) + c → corr = 0x60)
    (hnone : ¬ 9 < q + w + c ∧ ¬ 100 ≤ p * 10 + q + (r * 10 + w) + c → corr = 0x00)
    (hn : n = (16 * p + q + (16 * r + w) + c + corr) % 256) :
    (n % 16 ≤ 9 ∧ n / 16 ≤ 9) ∧ n / 16 * 10 + n % 16 = (p * 10 + q + (r * 10 + w) + c) % 100 := by
  by_cases h1 : 9 < q + w + c
  · by_cases h2 : 100 ≤ p * 10 + q + (r * 10 + w) + c
    · obtain rfl := hboth ⟨h1, h2⟩
      have hval : n = 16 * (p + r + 1 - 10) + (q + w + c - 10) := by omega
      omega
    · obtain rfl := hlow ⟨h1, h2⟩
      have hval : n = 16 * (p + r + 1) + (q + w + c - 10) := by omega
      omega
  · by_cases h2 : 100 ≤ p * 10 + q + (r * 10 + w) + c
    · obtain rfl := hhigh ⟨h1, h2⟩
      have hval : n = 16 * (p + r - 10) + (q + w + c) := by omega
      omega
    · obtain rfl := hnone ⟨h1, h2⟩
      have hval : n = 16 * (p + r) + (q + w + c) := by omega
      omega

/-- DAA after a binary sum of two packed decimal bytes leaves their decimal sum. -/
theorem daa_after_addsTo {s t : State} {v : Byte} {c : Bool} (hsum : s.addsTo t v c) (hs : isDecimal s.regs.a)
    (hv : isDecimal v) : ∃ u, exec .daa t = .next u ∧ isDecimal u.regs.a ∧
      decimalValue u.regs.a = (decimalValue s.regs.a + decimalValue v + c.toNat) % 100 ∧
      (u.flags.cy = true ↔ 100 ≤ decimalValue s.regs.a + decimalValue v + c.toNat) := by
  obtain ⟨ha, hcy, hac, -⟩ := hsum
  obtain ⟨u, corr, h, hboth, hlow, hhigh, hnone, hr, hcy', -⟩ := daaAppliesBothCorrections t
  obtain ⟨hslo, hshi⟩ := hs
  obtain ⟨hvlo, hvhi⟩ := hv
  have hc := Bool.toNat_le c
  obtain ⟨hdlow, hdhigh⟩ := daa_decisions hslo hvlo hc ha
  rw [hac, hcy, hdlow, hdhigh] at hboth hlow hhigh hnone
  rw [hcy, hdhigh] at hcy'
  simp only [isDecimal, decimalValue]
  exact ⟨u, h, and_assoc.mp ⟨packed_sum hshi hslo hvhi hvlo hc hboth hlow hhigh hnone (by omega), hcy'⟩⟩

/-- Settles O58: ADI and ACI leave the binary sum and the AC that DAA corrects it by. -/
theorem daaAfterAddGivesTheDecimalSum : Obligations.DaaAfterAddGivesTheDecimalSum := by
  intro s d8 hs hd
  obtain ⟨-, -, hadi, haci⟩ := addFamilyAddsIntoA s
  constructor
  · obtain ⟨t, h, hsum, -⟩ := hadi d8
    obtain ⟨u, hdaa, hres⟩ := daa_after_addsTo hsum hs hd
    exact ⟨u, execAll_pair h hdaa, hres⟩
  · obtain ⟨t, h, hsum, -⟩ := haci d8
    obtain ⟨u, hdaa, hres⟩ := daa_after_addsTo hsum hs hd
    exact ⟨u, execAll_pair h hdaa, hres⟩

end Sys2Proof.Machine
end

section
/-! Memory access, the stack and the exchanges: STA, LDA, SHLD, LHLD, STAX, LDAX, PUSH, POP, XCHG, XTHL (R170 to R183, R220,
R238). -/

namespace Sys2Proof.Machine

theorem State.hiByte_readWord (s : State) (a : Word) : hiByte (s.readWord a) = s.readByte (a + 1) := hiByte_joinBytes _ _
theorem State.loByte_readWord (s : State) (a : Word) : loByte (s.readWord a) = s.readByte a := loByte_joinBytes _ _

theorem State.hiByte_hl (s : State) : hiByte s.hl = s.regs.h := hiByte_joinBytes _ _
theorem State.loByte_hl (s : State) : loByte s.hl = s.regs.l := loByte_joinBytes _ _

theorem State.readByte_writeWord_low (s : State) (a v : Word) : (s.writeWord a v).readByte a = loByte v := by
  rw [State.readByte_writeWord, if_neg (add_one_ne a).symm, if_pos rfl]

theorem State.readByte_writeWord_high (s : State) (a v : Word) : (s.writeWord a v).readByte (a + 1) = hiByte v := by
  rw [State.readByte_writeWord, if_pos rfl]

/-! ## Direct and indirect access -/

/-- Settles O40: one byte write, and the frame. -/
theorem staStaxStoreA : Obligations.StaStaxStoreA := by
  intro s
  refine ⟨fun a16 => ?_, fun rp => ?_⟩
  · have h : exec (.sta a16) s = .next ((s.advance 3).writeByte a16 s.regs.a).retire := rfl
    exact ⟨_, h, State.readByte_writeByte_same _ _ _, exec_moves_no_flag h rfl rfl rfl rfl rfl⟩
  · have h : exec (.stax rp) s = .next ((s.advance 1).writeByte (s.indexAddr rp) s.regs.a).retire := by
      rw [← s.advance_indexAddr 1]
      rfl
    exact ⟨_, h, State.readByte_writeByte_same _ _ _, exec_moves_no_flag h rfl rfl rfl rfl rfl⟩

/-- Settles O41: one byte read into A, and the frame. -/
theorem ldaLdaxLoadA : Obligations.LdaLdaxLoadA := by
  intro s
  refine ⟨fun a16 => ?_, fun rp => ?_⟩
  · have h : exec (.lda a16) s = .next ((s.advance 3).setA (s.readByte a16)).retire := rfl
    exact ⟨_, h, rfl, exec_moves_no_flag h rfl rfl rfl rfl rfl⟩
  · have h : exec (.ldax rp) s = .next ((s.advance 1).setA (s.readByte (s.indexAddr rp))).retire := by
      rw [← s.advance_indexAddr 1]
      rfl
    exact ⟨_, h, rfl, exec_moves_no_flag h rfl rfl rfl rfl rfl⟩

/-- Settles O42: one word write or read, low byte first, and the frame. -/
theorem shldLhldMoveHlLowByteFirst : Obligations.ShldLhldMoveHlLowByteFirst := by
  intro s a16
  constructor
  · have h : exec (.shld a16) s = .next ((s.advance 3).writeWord a16 s.hl).retire := rfl
    exact ⟨_, h, (State.readByte_writeWord_low _ _ _).trans s.loByte_hl,
      (State.readByte_writeWord_high _ _ _).trans s.hiByte_hl,
      exec_moves_no_flag h rfl rfl rfl rfl rfl⟩
  · have h : exec (.lhld a16) s = .next ((s.advance 3).writePair .hl (s.readWord a16)).retire := rfl
    exact ⟨_, h, s.loByte_readWord a16, s.hiByte_readWord a16, exec_moves_no_flag h rfl rfl rfl rfl rfl⟩

/-! ## The exchanges -/

/-- Settles O52: each pair is written with the other's old value. -/
theorem xchgSwapsHlAndDe : Obligations.XchgSwapsHlAndDe := by
  intro s
  have h : exec .xchg s =
    .next (((s.advance 1).writePair .hl (s.readPair .de)).writePair .de s.hl).retire := rfl
  exact ⟨_, h, hiByte_joinBytes _ _, loByte_joinBytes _ _, s.hiByte_hl, s.loByte_hl, exec_moves_no_flag h rfl rfl rfl rfl rfl⟩

/-- Settles O56: HL and the word at SP are each written with the other's old value. -/
theorem xthlSwapsHlWithTheStackTop : Obligations.XthlSwapsHlWithTheStackTop := by
  intro s
  have h : exec .xthl s =
    .next (((s.advance 1).writeWord s.sp s.hl).writePair .hl (s.readWord s.sp)).retire := rfl
  exact ⟨_, h, s.loByte_readWord s.sp, s.hiByte_readWord s.sp,
    (State.readByte_writeWord_low _ _ _).trans s.loByte_hl, (State.readByte_writeWord_high _ _ _).trans s.hiByte_hl,
    exec_moves_no_flag h rfl rfl rfl rfl rfl⟩

/-! ## PUSH and POP -/

/-- The flag byte as a number: bit 1 always set, bits 3 and 5 clear (R79). -/
theorem Flags.pack_toNat (f : Flags) : f.pack.toNat =
    0x02 + f.s.toNat * 0x80 + f.z.toNat * 0x40 + f.ac.toNat * 0x10 + f.p.toNat * 0x04 + f.cy.toNat := by
  obtain ⟨z, s, p, cy, ac⟩ := f
  revert z s p cy ac
  decide

@[simp] theorem State.advance_readStackPair (s : State) (n : Nat) (rp : StackPair) :
    (s.advance n).readStackPair rp = s.readStackPair rp := by
  cases rp <;> rfl

theorem exec_push (rp : StackPair) (s : State) :
    exec (.push rp) s = .next ((s.advance 1).push16 (s.readStackPair rp)).retire := by
  rw [← s.advance_readStackPair 1]
  rfl

theorem exec_pop (rp : StackPair) (s : State) :
    exec (.pop rp) s = .next ((s.advance 1).popped.writeStackPair rp s.popValue).retire := rfl

/-- The bytes a PUSH leaves below SP. -/
theorem exec_push_bytes (rp : StackPair) (s : State) : ∃ t, exec (.push rp) s = .next t ∧
    t.readByte (s.sp - 1) = hiByte (s.readStackPair rp) ∧ t.readByte (s.sp - 2) = loByte (s.readStackPair rp) ∧
    t.sp = s.sp - 2 :=
  ⟨_, exec_push rp s, State.readByte_push16_high (s.advance 1) _, State.readByte_push16_low (s.advance 1) _, rfl⟩

/-- Settles O43: each operand's word is `joinBytes` of its two bytes. -/
theorem pushStoresThePair : Obligations.PushStoresThePair := by
  intro rp s
  obtain ⟨t, h, hhigh, hlow, hsp⟩ := exec_push_bytes rp s
  have hbytes {x y : Byte} (e : s.readStackPair rp = joinBytes x y) :
      t.readByte (s.sp - 1) = x ∧ t.readByte (s.sp - 2) = y := by
    rw [hhigh, hlow, e, hiByte_joinBytes, loByte_joinBytes]
    exact ⟨rfl, rfl⟩
  refine ⟨t, h, fun e => hbytes (e ▸ rfl), fun e => hbytes (e ▸ rfl), fun e => hbytes (e ▸ rfl), fun e => ?_, hsp,
    exec_pc_of_not_transfers h nofun rfl, exec_flags_of_not_writes h rfl rfl, exec_keeps h rfl⟩
  obtain ⟨ha, hf⟩ := hbytes (x := s.regs.a) (y := s.flags.pack) (e ▸ rfl)
  rw [hf, Flags.pack_toNat]
  exact ⟨ha, rfl⟩

/-- Settles O44: the two bytes at SP into the halves of each operand. -/
theorem popLoadsThePair : Obligations.PopLoadsThePair := by
  intro rp s
  have h := exec_pop rp s
  have hhigh : hiByte s.popValue = s.readByte (s.sp + 1) := s.hiByte_readWord s.sp
  have hlow : loByte s.popValue = s.readByte s.sp := s.loByte_readWord s.sp
  refine ⟨_, h, ?bc, ?de, ?hl, ?psw, fun hrp => State.writeStackPair_flags _ hrp _, State.writeStackPair_sp _ _ _,
    exec_pc_of_not_transfers h nofun rfl, exec_keeps h rfl⟩
  all_goals rintro rfl
  case bc | de | hl => exact ⟨hlow, hhigh⟩
  case psw =>
    rw [← hlow]
    exact ⟨hhigh, rfl, rfl, rfl, rfl, rfl⟩

/-- Writing an operand with its own value leaves the registers and the flags. -/
theorem State.writeStackPair_self {s t : State} (hregs : t.regs = s.regs) (hflags : t.flags = s.flags) (rp : StackPair) :
    (t.writeStackPair rp (s.readStackPair rp)).regs = s.regs ∧
    (t.writeStackPair rp (s.readStackPair rp)).flags = s.flags := by
  cases rp with
  | bc | de | hl => simp [State.writeStackPair, State.readStackPair, State.readPair, hregs, hflags]
  | psw => simp [State.writeStackPair, State.readStackPair, hregs]

/-- Settles O45: POP takes from the top the word that PUSH put there, and the operand gets its own value back. -/
theorem pushThenPopRestores : Obligations.PushThenPopRestores := by
  intro rp s
  refine ⟨_, execAll_pair (exec_push rp s) (exec_pop rp _), ?_⟩
  have htop : ((s.advance 1).push16 (s.readStackPair rp)).retire.popValue = s.readStackPair rp :=
    State.popValue_push16 (s.advance 1) _
  rw [htop]
  obtain ⟨hregs, hflags⟩ := State.writeStackPair_self (s := s)
    (t := (((s.advance 1).push16 (s.readStackPair rp)).retire.advance 1).popped) rfl rfl rp
  exact ⟨hregs, hflags, (State.writeStackPair_sp _ _ _).trans (BitVec.sub_add_cancel s.sp 2)⟩

end Sys2Proof.Machine
end

section
/-! Control flow: jumps, calls, returns and their conditions (R75, R190 to R216, R239, R241). -/

namespace Sys2Proof.Machine

/-! ## Unconditional -/

/-- Settles O46: one update of PC, with SP's at RET, and the frame. -/
theorem jmpPchlRetReplacePc : Obligations.JmpPchlRetReplacePc := by
  intro s a16
  have hjmp : exec (.jmp a16) s = .next ((s.advance 3).jump a16).retire := rfl
  have hpchl : exec .pchl s = .next ((s.advance 1).jump s.hl).retire := rfl
  have hret : exec .ret s = .next (s.advance 1).returnFrom.retire := rfl
  exact ⟨⟨_, hjmp, rfl, rfl, rfl, exec_keeps hjmp rfl⟩, ⟨_, hpchl, joinBytes_toNat _ _, rfl, rfl, exec_keeps hpchl rfl⟩,
    _, hret, s.topIs_popValue, rfl, rfl, exec_keeps hret rfl⟩

theorem exec_call (a16 : Word) (s : State) : exec (.call a16) s = .next ((s.advance 3).callTo a16).retire := rfl

theorem exec_rst (n : Fin 8) (s : State) : exec (.rst n) s = .next ((s.advance 1).callTo (rstTarget n)).retire := rfl

theorem exec_ret (s : State) : exec .ret s = .next (s.advance 1).returnFrom.retire := rfl

theorem rstTarget_toNat (n : Fin 8) : (rstTarget n).toNat = 8 * n.val := by
  have := n.isLt
  rw [rstTarget, BitVec.toNat_ofNat]
  omega

/-- A call from `n` bytes on pushes the address there. -/
theorem State.advance_callTo_pushesTo (s : State) (n : Nat) (a16 : Word) :
    s.pushesTo ((s.advance n).callTo a16).retire (s.pc + BitVec.ofNat 16 n) :=
  (s.advance n).push16_pushesTo (s.advance n).pc

/-- Settles O47: a push of the PC past the instruction, then a jump. -/
theorem callRstPushTheReturnAddress : Obligations.CallRstPushTheReturnAddress := by
  intro s
  refine ⟨fun a16 => ?_, fun n => ?_⟩
  · have h := exec_call a16 s
    exact ⟨_, h, rfl, s.advance_callTo_pushesTo 3 a16, rfl, exec_keeps h rfl⟩
  · have h := exec_rst n s
    exact ⟨_, h, rstTarget_toNat n, s.advance_callTo_pushesTo 1 _, rfl, exec_keeps h rfl⟩

@[simp] theorem State.advance_popValue (s : State) (n : Nat) : (s.advance n).popValue = s.popValue := rfl
@[simp] theorem State.retire_popValue (s : State) : s.retire.popValue = s.popValue := rfl
@[simp] theorem State.jump_popValue (s : State) (target : Word) : (s.jump target).popValue = s.popValue := rfl

/-- Returning from a call comes back to the address it pushed, with SP and the registers as they were. -/
theorem exec_ret_after_callTo (u : State) (a16 : Word) : ∃ t, exec .ret (u.callTo a16).retire = .next t ∧
    t.pc = u.pc ∧ t.sp = u.sp ∧ t.regs = u.regs := by
  refine ⟨_, exec_ret _, ?_, BitVec.sub_add_cancel u.sp 2, ?_⟩
  · simp [State.returnFrom, State.callTo]
  · simp [State.returnFrom, State.callTo]

/-- Settles O51: RET takes from the top the address that the call put there. -/
theorem callThenRetComesBack : Obligations.CallThenRetComesBack := by
  intro s
  refine ⟨fun a16 => ?_, fun n => ?_⟩
  · obtain ⟨t, hret, hback⟩ := exec_ret_after_callTo (s.advance 3) a16
    exact ⟨t, execAll_pair (exec_call a16 s) hret, hback⟩
  · obtain ⟨t, hret, hback⟩ := exec_ret_after_callTo (s.advance 1) (rstTarget n)
    exact ⟨t, execAll_pair (exec_rst n s) hret, hback⟩

/-! ## Conditional: a taken instruction is the unconditional one, an untaken one has only moved PC -/

theorem Flags.cond_nz_iff (f : Flags) : f.cond .nz = true ↔ f.z = false := iff_of_eq (Bool.not_eq_true' _)
theorem Flags.cond_nc_iff (f : Flags) : f.cond .nc = true ↔ f.cy = false := iff_of_eq (Bool.not_eq_true' _)
theorem Flags.cond_po_iff (f : Flags) : f.cond .po = true ↔ f.p = false := iff_of_eq (Bool.not_eq_true' _)
theorem Flags.cond_p_iff (f : Flags) : f.cond .p = true ↔ f.s = false := iff_of_eq (Bool.not_eq_true' _)

section
variable {s : State} {i : Instr} {a16 : Word} {cond : Cond} {taken : Prop}

theorem State.jumpsWhen_of_jumpIf (h : exec i s = .next ((s.advance 3).jumpIf cond a16).retire)
    (hctl : i.writesControl = false) (hregs : i.writtenRegs = []) (hstores : i.storeAddrs s = [])
    (htaken : s.flags.cond cond = true ↔ taken) : s.jumpsWhen i a16 taken := by
  have hkeeps := exec_keeps h hctl
  rw [hregs, hstores] at hkeeps
  refine ⟨_, h, fun ht => ?_, fun ht => ?_, State.jumpIf_keeps State.sp cond rfl, State.jumpIf_keeps State.flags cond rfl,
    hkeeps⟩
  · exact congrArg State.pc (if_pos (htaken.mpr ht))
  · exact congrArg State.pc (if_neg fun hc => ht (htaken.mp hc))

theorem State.callsWhen_of_callIf (h : exec i s = .next ((s.advance 3).callIf cond a16).retire)
    (hctl : i.writesControl = false) (hregs : i.writtenRegs = []) (htaken : s.flags.cond cond = true ↔ taken) :
    s.callsWhen i a16 taken := by
  have hkeeps := exec_keeps h hctl
  rw [hregs] at hkeeps
  refine ⟨_, h, fun ht => ?_, fun ht => ?_, State.callIf_keeps State.flags cond rfl, hkeeps⟩
  · have hcall : (s.advance 3).callIf cond a16 = (s.advance 3).callTo a16 := if_pos (htaken.mpr ht)
    rw [hcall]
    exact ⟨rfl, s.advance_callTo_pushesTo 3 a16⟩
  · have hcall : (s.advance 3).callIf cond a16 = s.advance 3 := if_neg fun hc => ht (htaken.mp hc)
    rw [hcall]
    exact ⟨rfl, rfl⟩

theorem State.returnsWhen_of_returnIf (h : exec i s = .next ((s.advance 1).returnIf cond).retire)
    (hctl : i.writesControl = false) (hregs : i.writtenRegs = []) (hstores : i.storeAddrs s = [])
    (htaken : s.flags.cond cond = true ↔ taken) : s.returnsWhen i taken := by
  have hkeeps := exec_keeps h hctl
  rw [hregs, hstores] at hkeeps
  refine ⟨_, h, fun ht => ?_, fun ht => ?_, State.returnIf_keeps State.flags cond rfl, hkeeps⟩
  · have hret : (s.advance 1).returnIf cond = (s.advance 1).returnFrom := if_pos (htaken.mpr ht)
    rw [hret]
    exact ⟨s.topIs_popValue, rfl⟩
  · have hret : (s.advance 1).returnIf cond = s.advance 1 := if_neg fun hc => ht (htaken.mp hc)
    rw [hret]
    exact ⟨rfl, rfl⟩

end

/-- Settles O48: each jump with the flag its condition tests. -/
theorem conditionalJumpsTestTheirFlag : Obligations.ConditionalJumpsTestTheirFlag := by
  intro s a16
  refine ⟨?_, ?_, ?_, ?_, ?_, ?_, ?_, ?_⟩
  · exact State.jumpsWhen_of_jumpIf (cond := .nz) rfl rfl rfl rfl s.flags.cond_nz_iff
  · exact State.jumpsWhen_of_jumpIf (cond := .z) rfl rfl rfl rfl Iff.rfl
  · exact State.jumpsWhen_of_jumpIf (cond := .nc) rfl rfl rfl rfl s.flags.cond_nc_iff
  · exact State.jumpsWhen_of_jumpIf (cond := .c) rfl rfl rfl rfl Iff.rfl
  · exact State.jumpsWhen_of_jumpIf (cond := .po) rfl rfl rfl rfl s.flags.cond_po_iff
  · exact State.jumpsWhen_of_jumpIf (cond := .pe) rfl rfl rfl rfl Iff.rfl
  · exact State.jumpsWhen_of_jumpIf (cond := .p) rfl rfl rfl rfl s.flags.cond_p_iff
  · exact State.jumpsWhen_of_jumpIf (cond := .m) rfl rfl rfl rfl Iff.rfl

/-- Settles O49: each call with the flag its condition tests. -/
theorem conditionalCallsTestTheirFlag : Obligations.ConditionalCallsTestTheirFlag := by
  intro s a16
  refine ⟨?_, ?_, ?_, ?_, ?_, ?_, ?_, ?_⟩
  · exact State.callsWhen_of_callIf (cond := .nz) rfl rfl rfl s.flags.cond_nz_iff
  · exact State.callsWhen_of_callIf (cond := .z) rfl rfl rfl Iff.rfl
  · exact State.callsWhen_of_callIf (cond := .nc) rfl rfl rfl s.flags.cond_nc_iff
  · exact State.callsWhen_of_callIf (cond := .c) rfl rfl rfl Iff.rfl
  · exact State.callsWhen_of_callIf (cond := .po) rfl rfl rfl s.flags.cond_po_iff
  · exact State.callsWhen_of_callIf (cond := .pe) rfl rfl rfl Iff.rfl
  · exact State.callsWhen_of_callIf (cond := .p) rfl rfl rfl s.flags.cond_p_iff
  · exact State.callsWhen_of_callIf (cond := .m) rfl rfl rfl Iff.rfl

/-- Settles O50: each return with the flag its condition tests. -/
theorem conditionalReturnsTestTheirFlag : Obligations.ConditionalReturnsTestTheirFlag := by
  intro s
  refine ⟨?_, ?_, ?_, ?_, ?_, ?_, ?_, ?_⟩
  · exact State.returnsWhen_of_returnIf (cond := .nz) rfl rfl rfl rfl s.flags.cond_nz_iff
  · exact State.returnsWhen_of_returnIf (cond := .z) rfl rfl rfl rfl Iff.rfl
  · exact State.returnsWhen_of_returnIf (cond := .nc) rfl rfl rfl rfl s.flags.cond_nc_iff
  · exact State.returnsWhen_of_returnIf (cond := .c) rfl rfl rfl rfl Iff.rfl
  · exact State.returnsWhen_of_returnIf (cond := .po) rfl rfl rfl rfl s.flags.cond_po_iff
  · exact State.returnsWhen_of_returnIf (cond := .pe) rfl rfl rfl rfl Iff.rfl
  · exact State.returnsWhen_of_returnIf (cond := .p) rfl rfl rfl rfl s.flags.cond_p_iff
  · exact State.returnsWhen_of_returnIf (cond := .m) rfl rfl rfl rfl Iff.rfl

end Sys2Proof.Machine
end
